-- ==== Sys2Proof/Word.lean ====
section
/-! DEFINITION. The byte and the byte string (00_scope.md R16, R17). -/

namespace Sys2Proof

/-- A byte: an 8-bit unsigned value, bit 7 the most significant (R16, R17). -/
abbrev Byte := BitVec 8

/-- A byte string in arrival order: index 0 is the byte that came first on the wire (R16). -/
abbrev ByteString := List Byte

end Sys2Proof
end

