-- ==== Sys2Proof/Syntax.lean ====
section
/-! DEFINITION. The closed list of operations (30_encoding.md R87, opcode_table.json), one constructor per row. -/

namespace Sys2Proof

/-- PROFILE: the two runtime profiles (R2, R15, R23). The spec gives them no numeric encoding. -/
inductive Profile
  | generic
  | vendorQuirk
  deriving DecidableEq, Repr

/-- The 23 operations of R87. Only the host transactions carry operands of their own; every other operation takes its
operands from the registers and buffers that its rule names. -/
inductive Instr
  /-- CONSTRUCT(key, profile), R160. The key is a byte string of any length: a wrong length is not admitted. -/
  | construct (key : ByteString) (profile : Profile)
  /-- PUSH(b), R161. -/
  | push (b : Byte)
  /-- TRIGGER, R162 and R163. -/
  | trigger
  /-- FA.INIT, R100. -/
  | faInit
  /-- FA.CHKSTART, R101. -/
  | faChkstart
  /-- FA.CHKLEN, R102. -/
  | faChklen
  /-- FA.CHKSIZE, R103. -/
  | faChksize
  /-- FA.CHKSTOP, R104. -/
  | faChkstop
  /-- FA.CHKSUM, R105. -/
  | faChksum
  /-- FA.APPEND, R106. -/
  | faAppend
  /-- FA.ADVANCE, R107. -/
  | faAdvance
  /-- SH.CHKMIN, R120. -/
  | shChkmin
  /-- SH.CHKTAG, R121. -/
  | shChktag
  /-- SH.CHKSTL, R122. -/
  | shChkstl
  /-- SH.LEN.GEN, R123. -/
  | shLenGen
  /-- SH.LEN.VQ, R124. -/
  | shLenVq
  /-- SH.CONS, R125. -/
  | shCons
  /-- SH.CHKSEC, R126. -/
  | shChksec
  /-- SH.LATCH, R127. -/
  | shLatch
  /-- DX.IV, R140. -/
  | dxIv
  /-- DX.GCM, R141. -/
  | dxGcm
  /-- DX.CHKPT, R142. -/
  | dxChkpt
  /-- HANDOFF, R167. -/
  | handoff
  deriving DecidableEq, Repr

/-- The host transactions (R2, R87): the operations the host asks for; the sequencer runs the others. -/
def Instr.isHostTransaction : Instr → Bool
  | .construct _ _ | .push _ | .trigger => true
  | .faInit | .faChkstart | .faChklen | .faChksize | .faChkstop | .faChksum | .faAppend | .faAdvance
  | .shChkmin | .shChktag | .shChkstl | .shLenGen | .shLenVq | .shCons | .shChksec | .shLatch
  | .dxIv | .dxGcm | .dxChkpt | .handoff => false

end Sys2Proof
end

