-- ==== Sys2Proof/Decode.lean ====
section
/-! DEFINITION. The encodings the spec gives: the stimulus notation of R88 (decoder, then encoder), its pseudo-operations
(R89), and the bit patterns of opcode_table.json (R72, R80, R84). The block itself decodes no operation (R64): what the
notation encodes is what the host asks for; what the patterns describe is the data an operation examines. -/

namespace Sys2Proof

/-! ## Characters and hexadecimal digits -/

/-- The characters of the notation as ASCII bytes (log 17). -/
def ascii (cs : List Char) : ByteString := cs.map fun c => BitVec.ofNat 8 c.toNat

/-- One hexadecimal digit, upper case (R88). -/
def hexDigit (d : BitVec 4) : Byte :=
  if d.toNat < 10 then BitVec.ofNat 8 (0x30 + d.toNat) else BitVec.ofNat 8 (0x37 + d.toNat)

/-- The value of an upper-case hexadecimal digit; nothing for any other character (R88). -/
def hexValue (c : Byte) : Option (BitVec 4) :=
  if 0x30 ≤ c.toNat ∧ c.toNat ≤ 0x39 then some (BitVec.ofNat 4 (c.toNat - 0x30))
  else if 0x41 ≤ c.toNat ∧ c.toNat ≤ 0x46 then some (BitVec.ofNat 4 (c.toNat - 0x37))
  else none

/-- A byte is two hexadecimal digits, the high one first (R88). -/
def hexByte (b : Byte) : ByteString :=
  [hexDigit (b.extractLsb' 4 4), hexDigit (b.extractLsb' 0 4)]

/-- The byte that two hexadecimal digits stand for. -/
def byteOfHex (hi lo : Byte) : Option Byte :=
  match hexValue hi, hexValue lo with
  | some h, some l => some (h ++ l)
  | _, _ => none

/-- A run of bytes without separators, as CONSTRUCT's key is written (R88). -/
def hexRun : ByteString → ByteString
  | [] => []
  | b :: bs => hexByte b ++ hexRun bs

/-- The bytes at the front of `text`, two digits each, and what follows them. -/
def readHexRun : ByteString → ByteString × ByteString
  | hi :: lo :: rest =>
    match byteOfHex hi lo with
    | some b => (b :: (readHexRun rest).1, (readHexRun rest).2)
    | none => ([], hi :: lo :: rest)
  | text => ([], text)

/-- What follows `head` in `text`, if `text` begins with `head`. -/
def afterHead : (head text : ByteString) → Option ByteString
  | [], text => some text
  | _ :: _, [] => none
  | h :: head, c :: text => if h = c then afterHead head text else none

/-! ## The stimulus notation (R87, R88) -/

/-- Why a line is no line of the notation. Each is safe: the line names no operation and none runs. -/
inductive DecodeError
  /-- The line begins with no mnemonic of R87. -/
  | unknownMnemonic
  /-- PUSH is not followed by exactly two upper-case hexadecimal digits. -/
  | badPushOperand
  /-- CONSTRUCT is not followed by a key of whole bytes and one of the two profiles. -/
  | badConstructOperands
  /-- PUSHN is not followed by bytes of two digits with one space between them. -/
  | badPushnOperands
  deriving DecidableEq, Repr

/-- The operations without operands, each under its mnemonic (R87). -/
def plainOperations : List (ByteString × Instr) :=
  [ (ascii ['T', 'R', 'I', 'G', 'G', 'E', 'R'], .trigger),
    (ascii ['F', 'A', '.', 'I', 'N', 'I', 'T'], .faInit),
    (ascii ['F', 'A', '.', 'C', 'H', 'K', 'S', 'T', 'A', 'R', 'T'], .faChkstart),
    (ascii ['F', 'A', '.', 'C', 'H', 'K', 'L', 'E', 'N'], .faChklen),
    (ascii ['F', 'A', '.', 'C', 'H', 'K', 'S', 'I', 'Z', 'E'], .faChksize),
    (ascii ['F', 'A', '.', 'C', 'H', 'K', 'S', 'T', 'O', 'P'], .faChkstop),
    (ascii ['F', 'A', '.', 'C', 'H', 'K', 'S', 'U', 'M'], .faChksum),
    (ascii ['F', 'A', '.', 'A', 'P', 'P', 'E', 'N', 'D'], .faAppend),
    (ascii ['F', 'A', '.', 'A', 'D', 'V', 'A', 'N', 'C', 'E'], .faAdvance),
    (ascii ['S', 'H', '.', 'C', 'H', 'K', 'M', 'I', 'N'], .shChkmin),
    (ascii ['S', 'H', '.', 'C', 'H', 'K', 'T', 'A', 'G'], .shChktag),
    (ascii ['S', 'H', '.', 'C', 'H', 'K', 'S', 'T', 'L'], .shChkstl),
    (ascii ['S', 'H', '.', 'L', 'E', 'N', '.', 'G', 'E', 'N'], .shLenGen),
    (ascii ['S', 'H', '.', 'L', 'E', 'N', '.', 'V', 'Q'], .shLenVq),
    (ascii ['S', 'H', '.', 'C', 'O', 'N', 'S'], .shCons),
    (ascii ['S', 'H', '.', 'C', 'H', 'K', 'S', 'E', 'C'], .shChksec),
    (ascii ['S', 'H', '.', 'L', 'A', 'T', 'C', 'H'], .shLatch),
    (ascii ['D', 'X', '.', 'I', 'V'], .dxIv),
    (ascii ['D', 'X', '.', 'G', 'C', 'M'], .dxGcm),
    (ascii ['D', 'X', '.', 'C', 'H', 'K', 'P', 'T'], .dxChkpt),
    (ascii ['H', 'A', 'N', 'D', 'O', 'F', 'F'], .handoff) ]

/-- "PUSH " (R88). -/
def pushHead : ByteString := ascii ['P', 'U', 'S', 'H', ' ']

/-- "CONSTRUCT key=" (R88). -/
def constructHead : ByteString :=
  ascii ['C', 'O', 'N', 'S', 'T', 'R', 'U', 'C', 'T', ' ', 'k', 'e', 'y', '=']

/-- " profile=" and the profile's name (R88). -/
def profileTail : Profile → ByteString
  | .generic => ascii [' ', 'p', 'r', 'o', 'f', 'i', 'l', 'e', '=', 'G', 'e', 'n', 'e', 'r', 'i', 'c']
  | .vendorQuirk =>
    ascii [' ', 'p', 'r', 'o', 'f', 'i', 'l', 'e', '=', 'V', 'e', 'n', 'd', 'o', 'r', 'Q', 'u', 'i', 'r', 'k']

/-- The operand of PUSH: one byte. -/
def decodePush : ByteString → Except DecodeError Instr
  | [hi, lo] =>
    match byteOfHex hi lo with
    | some b => .ok (.push b)
    | none => .error .badPushOperand
  | _ => .error .badPushOperand

/-- The operands of CONSTRUCT: the key's bytes, then the profile. The key's length is CONSTRUCT's own concern (R160). -/
def decodeConstruct (text : ByteString) : Except DecodeError Instr :=
  if (readHexRun text).2 = profileTail .generic then .ok (.construct (readHexRun text).1 .generic)
  else if (readHexRun text).2 = profileTail .vendorQuirk then .ok (.construct (readHexRun text).1 .vendorQuirk)
  else .error .badConstructOperands

/-- One line of the notation (R88), total on any bytes. The mnemonics of the operations that are no host transaction
are read as well (log 17): the host may not ask for one, see `Machine.selectOperation`. -/
def decode (line : ByteString) : Except DecodeError Instr :=
  match plainOperations.lookup line with
  | some i => .ok i
  | none =>
    match afterHead pushHead line with
    | some rest => decodePush rest
    | none =>
      match afterHead constructHead line with
      | some rest => decodeConstruct rest
      | none => .error .unknownMnemonic

/-- The line that stands for an operation (R87, R88). -/
def encode : Instr → ByteString
  | .construct key profile => constructHead ++ hexRun key ++ profileTail profile
  | .push b => pushHead ++ hexByte b
  | .trigger => ascii ['T', 'R', 'I', 'G', 'G', 'E', 'R']
  | .faInit => ascii ['F', 'A', '.', 'I', 'N', 'I', 'T']
  | .faChkstart => ascii ['F', 'A', '.', 'C', 'H', 'K', 'S', 'T', 'A', 'R', 'T']
  | .faChklen => ascii ['F', 'A', '.', 'C', 'H', 'K', 'L', 'E', 'N']
  | .faChksize => ascii ['F', 'A', '.', 'C', 'H', 'K', 'S', 'I', 'Z', 'E']
  | .faChkstop => ascii ['F', 'A', '.', 'C', 'H', 'K', 'S', 'T', 'O', 'P']
  | .faChksum => ascii ['F', 'A', '.', 'C', 'H', 'K', 'S', 'U', 'M']
  | .faAppend => ascii ['F', 'A', '.', 'A', 'P', 'P', 'E', 'N', 'D']
  | .faAdvance => ascii ['F', 'A', '.', 'A', 'D', 'V', 'A', 'N', 'C', 'E']
  | .shChkmin => ascii ['S', 'H', '.', 'C', 'H', 'K', 'M', 'I', 'N']
  | .shChktag => ascii ['S', 'H', '.', 'C', 'H', 'K', 'T', 'A', 'G']
  | .shChkstl => ascii ['S', 'H', '.', 'C', 'H', 'K', 'S', 'T', 'L']
  | .shLenGen => ascii ['S', 'H', '.', 'L', 'E', 'N', '.', 'G', 'E', 'N']
  | .shLenVq => ascii ['S', 'H', '.', 'L', 'E', 'N', '.', 'V', 'Q']
  | .shCons => ascii ['S', 'H', '.', 'C', 'O', 'N', 'S']
  | .shChksec => ascii ['S', 'H', '.', 'C', 'H', 'K', 'S', 'E', 'C']
  | .shLatch => ascii ['S', 'H', '.', 'L', 'A', 'T', 'C', 'H']
  | .dxIv => ascii ['D', 'X', '.', 'I', 'V']
  | .dxGcm => ascii ['D', 'X', '.', 'G', 'C', 'M']
  | .dxChkpt => ascii ['D', 'X', '.', 'C', 'H', 'K', 'P', 'T']
  | .handoff => ascii ['H', 'A', 'N', 'D', 'O', 'F', 'F']

/-! ## The pseudo-operations (R89) -/

/-- PUSHN b0 b1 ... bk expands to one PUSH line for each byte, in that order (R89). -/
def pushN (bs : ByteString) : List ByteString := bs.map fun b => encode (.push b)

/-- "PUSHN" (R89). -/
def pushnHead : ByteString := ascii ['P', 'U', 'S', 'H', 'N']

/-- Bytes of two digits, each after one space (R88). No byte at all is accepted: DESIGN CHOICE (log 17), the form
`PUSHN b0 b1 ... bk` of R89 says nothing of an empty list. -/
def readSpacedBytes : ByteString → Option ByteString
  | [] => some []
  | space :: hi :: lo :: rest =>
    if space = 0x20#8 then
      match byteOfHex hi lo, readSpacedBytes rest with
      | some b, some bs => some (b :: bs)
      | _, _ => none
    else none
  | _ => none

/-- One line of a stimulus as the transaction lines it stands for: a PUSHN line expands (R89), any other line stands for
itself. A bare PUSHN expands to no line: DESIGN CHOICE (log 17). -/
def expandLine (line : ByteString) : Except DecodeError (List ByteString) :=
  match afterHead pushnHead line with
  | none => .ok [line]
  | some text =>
    match readSpacedBytes text with
    | some bs => .ok (pushN bs)
    | none => .error .badPushnOperands

/-- A stimulus, a sequence of lines (R88), with every PUSHN expanded. -/
def expandStimulus : List ByteString → Except DecodeError (List ByteString)
  | [] => .ok []
  | line :: lines =>
    match expandLine line, expandStimulus lines with
    | .ok ls, .ok rest => .ok (ls ++ rest)
    | .error e, _ => .error e
    | _, .error e => .error e

/-- The sum of the bytes modulo 256 (R89, R105): 8-bit addition. -/
def byteSum (bs : ByteString) : Byte := bs.foldl (· + ·) 0

/-- FRAME(ci; payload): one M-Bus frame, 68 LL LL 68 ++ ci ++ payload ++ CS ++ 16 (R70, R89). -/
def frameBytes (ci payload : ByteString) : ByteString :=
  let len : Byte := BitVec.ofNat 8 (ci.length + payload.length)
  [0x68, len, len, 0x68] ++ ci ++ payload ++ [byteSum (ci ++ payload), 0x16]

/-- HDR_G1(title, len, sec, fc) (R89): the Generic header with a one-byte length. -/
def headerG1 (title : ByteString) (len sec : Byte) (fc : ByteString) : ByteString :=
  [0xDB, 0x08] ++ title ++ [len] ++ [sec] ++ fc

/-- HDR_G3(title, hi, lo, sec, fc) (R89): the Generic header with the length form 82 hi lo. -/
def headerG3 (title : ByteString) (hi lo sec : Byte) (fc : ByteString) : ByteString :=
  [0xDB, 0x08] ++ title ++ [0x82, hi, lo] ++ [sec] ++ fc

/-- HDR_V2(title, fc) (R89): the VendorQuirk header; the 20 of the marker is also the security byte (R80). -/
def headerV2 (title fc : ByteString) : ByteString :=
  [0xDB, 0x08] ++ title ++ [0x81, 0xF8, 0x20] ++ fc

/-! ## The patterns of opcode_table.json -/

/-- One row of opcode_table.json that constrains bits: a word of `nbits` bits matches when its bits under `mask` are
`value` and, for FA.CHKLEN, when its two length bytes are equal. -/
structure PatternRow where
  nbits : Nat
  mask : Nat
  value : Nat
  equalLengths : Bool
  instr : Instr
  deriving DecidableEq, Repr

/-- The rows with a pattern. FA.CHKSTART and FA.CHKLEN have one mask and one match; the row with the further condition
stands first, and FA.CHKSUM, whose byte may be any, stands last (log 18). -/
def patternRows : List PatternRow :=
  [ ⟨32, 0xFF0000FF, 0x68000068, true, .faChklen⟩,
    ⟨32, 0xFF0000FF, 0x68000068, false, .faChkstart⟩,
    ⟨8, 0xFF, 0x16, false, .faChkstop⟩,
    ⟨8, 0xFF, 0xDB, false, .shChktag⟩,
    ⟨8, 0xFF, 0x08, false, .shChkstl⟩,
    ⟨24, 0xFF0000, 0x820000, false, .shLenGen⟩,
    ⟨24, 0xFFFFFF, 0x81F820, false, .shLenVq⟩,
    ⟨8, 0xFE, 0x20, false, .shChksec⟩,
    ⟨48, 0x0000000000FF, 0x00000000000C, false, .dxChkpt⟩,
    ⟨8, 0x00, 0x00, false, .faChksum⟩ ]

/-- A byte string as one number, its byte 0 the most significant (R17, R72). -/
def wordOfBytes (bs : ByteString) : Nat := bs.foldl (fun w b => 256 * w + b.toNat) 0

/-- A number of `n` bytes as a byte string, most significant byte first. -/
def bytesOfWord : (n w : Nat) → ByteString
  | 0, _ => []
  | n + 1, w => BitVec.ofNat 8 (w >>> (8 * n)) :: bytesOfWord n w

/-- Whether a word of `nbits` bits matches the row. -/
def PatternRow.accepts (r : PatternRow) (nbits w : Nat) : Bool :=
  r.nbits == nbits && (w &&& r.mask) == r.value
    && (!r.equalLengths || (w >>> 16) % 256 == (w >>> 8) % 256)

/-- The operation whose pattern the bytes match, the bytes in wire order (R72, R80, R84); nothing where they match
no row. -/
def decodePattern (bs : ByteString) : Option Instr :=
  (patternRows.find? fun r => r.accepts (8 * bs.length) (wordOfBytes bs)).map PatternRow.instr

/-- The operation read from a word numbered as opcode_table.json numbers it: the table writes each pattern as one
big-endian word, so the word's most significant byte is the first on the wire (R17, R72). A row that constrains no bit
cannot be told from another by its bits: nothing is answered for no bits, nor for bits that make no whole bytes. -/
def decodeTableWord (nbits w : Nat) : Option Instr :=
  if nbits % 8 = 0 ∧ w < 2 ^ nbits then decodePattern (bytesOfWord (nbits / 8) w) else none

end Sys2Proof
end

