-- ==== Sys2Proof/Config.lean ====
section
/-! DEFINITION. What an instance of the block fixes before CONSTRUCT (00_scope.md section 4, R213), and the one
free function of the model, the library's AES-128-GCM primitive. -/

namespace Sys2Proof

/-- The capacity of the raw buffer: no bound, or a number of bytes, at least 1 (R12, open). -/
inductive Capacity
  | unbounded
  /-- 1 + n bytes: a capacity of 0 cannot be written. -/
  | onePlus (n : Nat)
  deriving DecidableEq, Repr

/-- Which function the instance has for `Gcm` (R14). `library` is the primitive the block is linked with, of which only
R145 is known; `ref` and `fail` are the two test doubles of R147. -/
inductive GcmChoice
  | library
  | ref
  | fail
  deriving DecidableEq, Repr

/-- The implementation parameters (R9 to R14). They do not change during the life of an instance (R213). -/
structure Params where
  /-- N_CI, the number of control-information bytes of a frame, 0..255 (R9, open). -/
  nCi : Fin 256
  /-- LEN_CORRECTION, subtracted from the raw length field (R10, 90_conflicts.md C3). -/
  lenCorrection : Nat
  /-- STRUCT_TAG, the byte the plaintext must begin with (R11, open). -/
  structTag : Byte
  /-- RAWBUF_CAP (R12, open). -/
  rawBufCap : Capacity
  /-- CHECKSUM_VERIFY (R13). -/
  checksumVerify : Bool
  /-- Gcm (R14). -/
  gcm : GcmChoice
  deriving DecidableEq, Repr

/-- The AES-128-GCM primitive of the library: a FREE function (R14, R145, log 9). It is total, depends on its four
arguments alone, and answers either nothing (the authentication failed) or as many bytes as `data` has; nothing else is
known of it. -/
opaque Config.gcmPrimitive (key : Vector Byte 16) (iv : Vector Byte 12) (aad data : ByteString) :
    Option (Vector Byte data.length)

end Sys2Proof
end

