-- ==== Sys2Proof/Machine/Constants.lean ====
section
/-! DEFINITION. The constants of the wire formats (00_scope.md R7, R8) and the reference configuration REF (section 4). -/

namespace Sys2Proof.Machine

/-- START, both start markers of a frame (R7). -/
abbrev startMarker : Byte := 0x68
/-- STOP, the last byte of a frame (R7). -/
abbrev stopMarker : Byte := 0x16
/-- HEADER_INTRO_LENGTH, the bytes 68 L L 68 (R8). -/
abbrev headerIntroLength : Nat := 4
/-- FOOTER_LENGTH, checksum and stop (R8). -/
abbrev footerLength : Nat := 2
/-- START1_OFFSET (R8). -/
abbrev start1Offset : Nat := 0
/-- LEN1_OFFSET (R8). -/
abbrev len1Offset : Nat := 1
/-- LEN2_OFFSET (R8). -/
abbrev len2Offset : Nat := 2
/-- START2_OFFSET (R8). -/
abbrev start2Offset : Nat := 3
/-- SIZE_SLACK, the 3 of the document's own size test (R7, R103). -/
abbrev sizeSlack : Nat := 3
/-- CIPHER_TAG (R7). -/
abbrev cipherTag : Byte := 0xDB
/-- TITLE_LEN (R7). -/
abbrev titleLen : Nat := 8
/-- MIN_CT_LEN (R7). -/
abbrev minCtLen : Nat := 20
/-- TWO_BYTE_LEN_MARK (R7). -/
abbrev twoByteLenMark : Byte := 0x82
/-- VQ_LEN_MARK (R7). -/
abbrev vqLenMark : Byte := 0x81
/-- VQ_MARK, its first byte, which is the length as well (R7, R80). -/
abbrev vqMarkFirst : Byte := 0xF8
/-- VQ_MARK, its second byte, which is the security byte as well (R7, R80). -/
abbrev vqMarkSecond : Byte := 0x20
/-- SEC_BYTES, the security-control bytes accepted (R7). -/
abbrev secBytes : List Byte := [0x20, 0x21]
/-- FIXED_HEADER_LEN: tag 1, title length 1, title 8, first length byte 1, security byte 1, frame counter 4 (R8). -/
abbrev fixedHeaderLen : Nat := 16
/-- IV_LEN (R7). -/
abbrev ivLen : Nat := 12
/-- FC_LEN (R7). -/
abbrev fcLen : Nat := 4
/-- KEY_LEN (R7). -/
abbrev keyLen : Nat := 16
/-- PT_COUNT_OFFSET (R7). -/
abbrev ptCountOffset : Nat := 5
/-- PT_COUNT_VALUE (R7). -/
abbrev ptCountValue : Byte := 0x0C

/-- REF, the reference configuration that the vectors of 95_test_vectors.md use (00_scope.md section 4). N_CI and
STRUCT_TAG are there from general knowledge (93_implementation_defined.md G1, G2; log 4). -/
def refParams : Params :=
  { nCi := 5
    lenCorrection := 2
    structTag := 0x02
    rawBufCap := .unbounded
    checksumVerify := false
    gcm := .ref }

end Sys2Proof.Machine
end

