-- ==== Sys2Proof/Machine/State.lean ====
section
/-! DEFINITION. The state of the block (10_state.md, 20_memory.md), its errors and events (60_exceptions.md), the faults
and refusals of the model, and the state at reset. -/

namespace Sys2Proof.Machine

/-! ## Errors (60_exceptions.md R180) -/

/-- FramingError: the document's four variants and the extension `badChecksum` (R181 to R185). -/
inductive FramingError
  | badStartMarker
  | lengthMismatch
  | truncated
  | badStopMarker
  /-- Only when CHECKSUM_VERIFY = 1 (R185). -/
  | badChecksum
  deriving DecidableEq, Repr

/-- HeaderError (R186 to R191). -/
inductive HeaderError
  | tooShort
  | unsupportedCipher
  | unsupportedTitleLength
  | malformedLength
  | lengthInconsistent
  | unsupportedSecurityByte
  deriving DecidableEq, Repr

/-- DecryptError (R192, R193). -/
inductive DecryptError
  | authenticationFailed
  | invalidPlaintext
  deriving DecidableEq, Repr

/-- DecodeError of the downstream decoder: in the code space only, the block never raises it (R194). -/
inductive DownstreamError
  | unexpectedType
  | unexpectedCodeLength
  | unsupportedMedium
  | unsupportedDataType
  deriving DecidableEq, Repr

/-- An error variant the block can raise (R180). -/
inductive BlockError
  | framing (e : FramingError)
  | header (e : HeaderError)
  | decrypt (e : DecryptError)
  deriving DecidableEq, Repr

/-- The info an error records, for diagnostics only (R181 to R193, R195). -/
inductive ErrorInfo
  | none
  /-- FRAME_OFF (R181 to R184). -/
  | frameOff (f : Nat)
  /-- CTLEN (R186). -/
  | ctLen (n : Nat)
  /-- The offending byte (R187, R188, R191). -/
  | byte (b : Byte)
  /-- CT[10..12] (R189). -/
  | bytes (bs : ByteString)
  /-- LENF (R190). -/
  | lenf (v : BitVec 16)
  deriving DecidableEq, Repr

/-- OUTCOME (R24). The info stands beside the variant (log 14). -/
inductive TerminalOutcome
  | none
  | ok
  | abort (e : BlockError) (info : ErrorInfo)
  deriving DecidableEq, Repr

/-! ## The sequencer's position, the header and the events -/

/-- PHASE, eighteen names without a numeric encoding (R26). -/
inductive Phase
  | idle
  | faChkstart
  | faChklen
  | faChksize
  | faChkstop
  | faChksum
  | faAppend
  | faAdvance
  | shChkmin
  | shChktag
  | shChkstl
  | shLen
  | shCons
  | shChksec
  | shLatch
  | dxIv
  | dxGcm
  | dxChkpt
  deriving DecidableEq, Repr

/-- SecureHeader, the five registers the parser gives out (R38). -/
structure SecureHeader where
  systemTitle : Vector Byte 8
  frameCounter : Vector Byte 4
  messageLength : BitVec 16
  headerOffset : BitVec 2
  securityByte : Byte
  deriving DecidableEq, Repr

/-- The output events (R170). -/
inductive Event
  /-- On success: copies of the header, of the plaintext and of the profile (R167). -/
  | plaintextReady (header : SecureHeader) (plaintext : ByteString) (profile : Profile)
  /-- On any error (R196). -/
  | aborted (e : BlockError)
  deriving DecidableEq, Repr

/-! ## Memory (20_memory.md R50) -/

/-- The three address spaces (R50). -/
inductive Space
  | raw
  | ct
  | pt
  deriving DecidableEq, Repr

/-- A buffer: its cells, each an offset with its byte, offsets counting up from 0. An offset without a cell does not
exist and has no value (R50, R56; log 6, log 7). -/
abbrev Memory := List Host.Cell

/-- The ephemeral registers and buffers by name (R20), for the fault of reading one that holds no value. -/
inductive Register
  | frameOff
  | l
  | ct
  | lenf
  | hdrOff
  | msgLen
  | secByte
  | sysTitle
  | frameCtr
  | iv
  | pt
  deriving DecidableEq, Repr

/-! ## Faults and refusals of the model -/

/-- Faults of the model, never a behaviour of the block. -/
inductive Fault
  /-- An operation reads an ephemeral register or buffer that holds no value. Raised by every operation that reads one.
  No reachable state does so (R21). Safe: the model stops. -/
  | noValue (r : Register)
  /-- A read of `count` bytes at `offset` is not inside the buffer. Raised by every operation that reads a buffer. No
  reachable state does so (R56). Safe: the model stops. -/
  | outOfBounds (space : Space) (offset count : Nat)
  deriving DecidableEq, Repr

/-- Why an operation has no step (R19, "not admitted"). -/
inductive Refusal
  /-- Raised by an arm of `exec` whose instruction has no meaning yet: there is none. Safe. -/
  | notModelled (mnemonic : String)
  /-- CONSTRUCT with a key that has not 16 bytes (R160, D23). Safe: no step. -/
  | keyLength
  /-- CONSTRUCT on a block that exists: it happens exactly once (R160, R218). Safe: no step. -/
  | alreadyConstructed
  /-- PUSH or TRIGGER before CONSTRUCT, when no block exists (R22, R171, R212). Safe: no step. -/
  | notConstructed
  /-- PUSH or TRIGGER while PHASE is not IDLE (R161, R163, D19). Safe: no step. -/
  | busy
  /-- PUSH into a full buffer (R161, D18). Safe: no step. -/
  | bufferFull
  /-- The sequencer in IDLE meets a line that is no line of the notation (R88). Safe: no step. -/
  | undecodable (e : DecodeError)
  /-- The sequencer in IDLE meets a line that names an operation the host cannot ask for (R88). Safe: no step. -/
  | notHostTransaction
  deriving DecidableEq, Repr

/-! ## The state -/

/-- The state: the parameters of the instance, the block's registers and buffers, and, as the model's own fields, whether
the block exists, the host's moves to come and the events emitted. An ephemeral register or buffer without value is
`none` (R21, D25). -/
structure State where
  /-- The parameters of the instance (R213). -/
  params : Params
  /-- The model's own: CONSTRUCT has happened (R22, R160; log 3). -/
  constructed : Bool
  /-- KEY (R22). -/
  key : Vector Byte 16
  /-- PROFILE (R23). -/
  profile : Profile
  /-- OUTCOME (R24). -/
  outcome : TerminalOutcome
  /-- PHASE (R26). -/
  phase : Phase
  /-- RAW (R51); its length is RAWLEN (R28). -/
  raw : Memory
  /-- FRAME_OFF (R27). -/
  frameOff : Option Nat
  /-- L (R29). -/
  l : Option (BitVec 8)
  /-- CT (R52); its length is CTLEN (R30). -/
  ct : Option Memory
  /-- LENF (R31). -/
  lenf : Option (BitVec 16)
  /-- HDR_OFF (R32). -/
  hdrOff : Option (BitVec 2)
  /-- MSG_LEN (R33). -/
  msgLen : Option (BitVec 16)
  /-- SEC_BYTE (R34). -/
  secByte : Option (BitVec 8)
  /-- SYS_TITLE (R35). -/
  sysTitle : Option (Vector Byte 8)
  /-- FRAME_CTR (R36). -/
  frameCtr : Option (Vector Byte 4)
  /-- IV (R37). -/
  iv : Option (Vector Byte 12)
  /-- PT (R53). -/
  pt : Option Memory
  /-- The model's own: the host's transactions not yet made, one line of the notation each (R88; log 2). -/
  pending : List ByteString
  /-- The model's own: the events emitted so far, oldest first (R170; log 15). -/
  events : List Event
  deriving DecidableEq, Repr

/-- The machine right after reset: the values of R40 for every register and buffer, in an instance with the parameters
of REF (log 4). No block exists until the host's first transaction, CONSTRUCT, which is the block's own reset (R40, R160,
R210); until then KEY is zero and PROFILE Generic (DESIGN CHOICE, log 3). -/
def State.reset : State :=
  { params := refParams
    constructed := false
    key := Vector.replicate 16 0
    profile := .generic
    outcome := .none
    phase := .idle
    raw := []
    frameOff := none
    l := none
    ct := none
    lenf := none
    hdrOff := none
    msgLen := none
    secByte := none
    sysTitle := none
    frameCtr := none
    iv := none
    pt := none
    pending := []
    events := [] }

end Sys2Proof.Machine
end

