-- ==== Sys2Proof/Machine/Gcm.lean ====
section
/-! DEFINITION. The Gcm primitive of an instance (43_decryptor_interface.md R144 to R147): the library's, which is free;
GcmRef, AES-128 in counter mode without a tag; GcmFail. AES-128 is from general knowledge (R147, G4, G9; log 10). -/

namespace Sys2Proof.Machine

/-! ## AES-128 on one block -/

/-- The rows of the AES substitution table: row `h` holds the images of the bytes `h`0 to `h`F, the first the most
significant. -/
def aesSboxRows : List Nat :=
  [ 0x637c777bf26b6fc53001672bfed7ab76, 0xca82c97dfa5947f0add4a2af9ca472c0,
    0xb7fd9326363ff7cc34a5e5f171d83115, 0x04c723c31896059a071280e2eb27b275,
    0x09832c1a1b6e5aa0523bd6b329e32f84, 0x53d100ed20fcb15b6acbbe394a4c58cf,
    0xd0efaafb434d338545f9027f503c9fa8, 0x51a3408f929d38f5bcb6da2110fff3d2,
    0xcd0c13ec5f974417c4a77e3d645d1973, 0x60814fdc222a908846eeb814de5e0bdb,
    0xe0323a0a4906245cc2d3ac629195e479, 0xe7c8376d8dd54ea96c56f4ea657aae08,
    0xba78252e1ca6b4c6e8dd741f4bbd8b8a, 0x703eb5664803f60e613557b986c11d9e,
    0xe1f8981169d98e949b1e87e9ce5528df, 0x8ca1890dbfe6426841992d0fb054bb16 ]

/-- SubBytes on one byte. -/
def aesSubByte (b : Byte) : Byte :=
  BitVec.ofNat 8 (aesSboxRows.getD (b.toNat / 16) 0 >>> (8 * (15 - b.toNat % 16)))

/-- Multiplication by 2 in the field of AES. -/
def aesXtime (b : Byte) : Byte := if b.msb then (b <<< 1) ^^^ 0x1B else b <<< 1

/-- Bytewise exclusive or, as long as the shorter. -/
def xorBytes (a b : ByteString) : ByteString := List.zipWith (· ^^^ ·) a b

/-- ShiftRows on a block whose columns stand one after another. -/
def aesShiftRows (st : ByteString) : ByteString :=
  [0, 5, 10, 15, 4, 9, 14, 3, 8, 13, 2, 7, 12, 1, 6, 11].map fun i => st.getD i 0

/-- MixColumns, one column of four bytes after another. -/
def aesMixColumns : ByteString → ByteString
  | a :: b :: c :: d :: rest =>
    [ aesXtime a ^^^ (aesXtime b ^^^ b) ^^^ c ^^^ d,
      a ^^^ aesXtime b ^^^ (aesXtime c ^^^ c) ^^^ d,
      a ^^^ b ^^^ aesXtime c ^^^ (aesXtime d ^^^ d),
      (aesXtime a ^^^ a) ^^^ b ^^^ c ^^^ aesXtime d ] ++ aesMixColumns rest
  | rest => rest

/-- The next round key, with the round's constant. -/
def aesNextKey (rcon : Byte) (k : ByteString) : ByteString :=
  let w0 := xorBytes (k.take 4)
    [aesSubByte (k.getD 13 0) ^^^ rcon, aesSubByte (k.getD 14 0), aesSubByte (k.getD 15 0), aesSubByte (k.getD 12 0)]
  let w1 := xorBytes ((k.drop 4).take 4) w0
  let w2 := xorBytes ((k.drop 8).take 4) w1
  let w3 := xorBytes ((k.drop 12).take 4) w2
  w0 ++ w1 ++ w2 ++ w3

/-- The rounds, one for each constant; the last one mixes no columns. -/
def aesRounds : (rcons : List Byte) → (k st : ByteString) → ByteString
  | [], _, st => st
  | [rcon], k, st => xorBytes (aesShiftRows (st.map aesSubByte)) (aesNextKey rcon k)
  | rcon :: rcons, k, st =>
    aesRounds rcons (aesNextKey rcon k)
      (xorBytes (aesMixColumns (aesShiftRows (st.map aesSubByte))) (aesNextKey rcon k))

/-- E: AES-128 encryption of one 16-byte block under `key` (R147). -/
def aesEncrypt (key block : ByteString) : ByteString :=
  aesRounds [0x01, 0x02, 0x04, 0x08, 0x10, 0x20, 0x40, 0x80, 0x1B, 0x36] key (xorBytes block key)

/-! ## GcmRef and the instance's primitive -/

/-- A block counter as its four bytes, big-endian (R147). -/
def counterBytes (n : BitVec 32) : ByteString :=
  [n.extractLsb' 24 8, n.extractLsb' 16 8, n.extractLsb' 8 8, n.extractLsb' 0 8]

/-- `blocks` blocks of keystream, the first with the counter `ctr` (R147). -/
def keystream (key : ByteString) (iv : ByteString) : (blocks : Nat) → (ctr : BitVec 32) → ByteString
  | 0, _ => []
  | n + 1, ctr => aesEncrypt key (iv ++ counterBytes ctr) ++ keystream key iv n (ctr + 1)

/-- GcmRef (R147): `data` exclusive-ored with the keystream that begins with the counter 2; it checks no tag. -/
def gcmRef (key : Vector Byte 16) (iv : Vector Byte 12) (data : ByteString) : ByteString :=
  xorBytes data (keystream key.toList iv.toList ((data.length + 15) / 16) 2)

/-- What the primitive answers (R14). -/
inductive GcmAnswer
  | authFail
  | ok (p : ByteString)
  deriving DecidableEq, Repr

/-- The library primitive's answer, from the free function of Config (R145). -/
def gcmLibrary (key : Vector Byte 16) (iv : Vector Byte 12) (aad data : ByteString) : GcmAnswer :=
  match Config.gcmPrimitive key iv aad data with
  | none => .authFail
  | some p => .ok p.toList

/-- Gcm(key, iv, aad, data) of the instance (R14, R147). -/
def gcm (choice : GcmChoice) (key : Vector Byte 16) (iv : Vector Byte 12) (aad data : ByteString) : GcmAnswer :=
  match choice with
  | .library => gcmLibrary key iv aad data
  | .ref => .ok (gcmRef key iv data)
  | .fail => .authFail

end Sys2Proof.Machine
end

