-- ==== Sys2Proof/Machine/Ops.lean ====
section
/-! DEFINITION. The named operations over buffers and registers (00_scope.md R18), and the abort action and the success
action (60_exceptions.md R196, 44_pipeline_and_host.md R167). -/

namespace Sys2Proof.Machine

/-- What an operation answers: the next state, a fault of the model, or that it has no step (R19). -/
abbrev StepResult := Host.Outcome State Fault Refusal

/-! ## Buffers (R18, R50) -/

/-- The cells of `bs` from offset `a` on. -/
def Memory.cellsFrom : (a : Nat) → ByteString → Memory
  | _, [] => []
  | a, b :: bs => (a, b) :: Memory.cellsFrom (a + 1) bs

/-- A byte string as a buffer. -/
def Memory.ofBytes (bs : ByteString) : Memory := Memory.cellsFrom 0 bs

/-- The bytes of a buffer in the order of their offsets. -/
def Memory.bytes (m : Memory) : ByteString := m.map Prod.snd

/-- The one canonical form of a buffer: its offsets are 0, 1, 2, … without a gap (R50). -/
def Memory.wf (m : Memory) : Bool := m.map Prod.fst == List.range m.length

/-- What one offset of a buffer holds. An offset without a cell does not exist (R56). -/
def Memory.read? (m : Memory) (a : Nat) : Option Byte := m.lookup a

/-- `n` bytes from offset `a` on, where each of them exists. -/
def Memory.readRun (m : Memory) : (a n : Nat) → Option ByteString
  | _, 0 => some []
  | a, n + 1 =>
    match Memory.read? m a, Memory.readRun m (a + 1) n with
    | some b, some bs => some (b :: bs)
    | _, _ => none

/-- MemRead(S, a, n), defined only when a + n ≤ len(S) (R18). -/
def Memory.read (m : Memory) (a n : Nat) : Option ByteString :=
  if a + n ≤ m.length then Memory.readRun m a n else none

/-- MemAppend(S, B) (R18): the bytes of B at the offsets after the last. -/
def Memory.append (m : Memory) (bs : ByteString) : Memory := m ++ Memory.cellsFrom m.length bs

/-- MemClear(S) (R18). -/
def Memory.clear : Memory := []

/-- RAWLEN (R28). -/
def State.rawLen (s : State) : Nat := s.raw.length

/-- The buffer of an address space; CT and PT may hold no value (R52, R53). -/
def State.buffer (s : State) : Space → Option Memory
  | .raw => some s.raw
  | .ct => s.ct
  | .pt => s.pt

/-- One byte of memory: the model's read of one offset of one address space. -/
def State.readByte? (s : State) (sp : Space) (a : Nat) : Option Byte :=
  match s.buffer sp with
  | some m => Memory.read? m a
  | none => none

/-- A byte string of exactly `n` bytes as a register's value. -/
def toVector? (n : Nat) (bs : ByteString) : Option (Vector Byte n) :=
  if h : bs.length = n then some ⟨bs.toArray, by simp [h]⟩ else none

/-! ## Reading registers and buffers inside an operation -/

/-- Read an ephemeral register or buffer; that it holds no value is a fault of the model (R21). -/
def need {α : Type} (r : Register) (v : Option α) (k : α → StepResult) : StepResult :=
  match v with
  | some x => k x
  | none => .fault (.noValue r)

/-- MemRead(S, a, 1) (R18). -/
def memReadByte (sp : Space) (m : Memory) (a : Nat) (k : Byte → StepResult) : StepResult :=
  match Memory.read? m a with
  | some b => k b
  | none => .fault (.outOfBounds sp a 1)

/-- MemRead(S, a, n) (R18). -/
def memRead (sp : Space) (m : Memory) (a n : Nat) (k : ByteString → StepResult) : StepResult :=
  match Memory.read m a n with
  | some bs => k bs
  | none => .fault (.outOfBounds sp a n)

/-- MemRead(S, a, n) into a register of n bytes. -/
def memReadVec (sp : Space) (m : Memory) (a n : Nat) (k : Vector Byte n → StepResult) : StepResult :=
  match (Memory.read m a n).bind (toVector? n) with
  | some v => k v
  | none => .fault (.outOfBounds sp a n)

/-! ## Numbers (R17) -/

/-- be16(a, b) = 256 * a + b (R17, R54). -/
def be16 (a b : Byte) : BitVec 16 := BitVec.ofNat 16 (256 * a.toNat + b.toNat)

/-- zext_16(v) (R17). -/
def zext16 (v : Byte) : BitVec 16 := v.setWidth 16

/-! ## The end of an attempt -/

/-- Every ephemeral register, CT and PT: no value (R20, R40, R196). -/
def State.dropEphemeral (s : State) : State :=
  { s with
    frameOff := none, l := none, ct := none, lenf := none, hdrOff := none, msgLen := none, secByte := none,
    sysTitle := none, frameCtr := none, iv := none, pt := none }

/-- What every terminal outcome does (R41): RAW empty, ephemeral state without value, PHASE in IDLE; OUTCOME and the event
are the caller's. -/
def State.endAttempt (s : State) (o : TerminalOutcome) (ev : Event) : State :=
  { s.dropEphemeral with
    outcome := o, raw := Memory.clear, phase := .idle, events := s.events ++ [ev] }

/-- The abort action, `raise E.V(info)`: the block's one exception entry (R196). Nothing is saved, KEY and PROFILE are
untouched, control goes to IDLE. There is no return instruction: this action itself returns the block to IDLE, ready for
the next PUSH (R199). -/
def State.raise (s : State) (e : BlockError) (info : ErrorInfo) : State :=
  s.endAttempt (.abort e info) (.aborted e)

/-- `raise` as the answer of an operation. -/
def abort (s : State) (e : BlockError) (info : ErrorInfo) : StepResult := .next (s.raise e info)

/-- The success action with the values it hands out (R167). -/
def State.succeed (s : State) (h : SecureHeader) (pt : ByteString) : State :=
  s.endAttempt .ok (.plaintextReady h pt s.profile)

/-- HANDOFF's pseudocode (R167): gather the five registers of the SecureHeader and PT, then the success action. -/
def successAction (s : State) : StepResult :=
  need .sysTitle s.sysTitle fun title =>
  need .frameCtr s.frameCtr fun ctr =>
  need .msgLen s.msgLen fun len =>
  need .hdrOff s.hdrOff fun off =>
  need .secByte s.secByte fun sec =>
  need .pt s.pt fun pt =>
  .next (s.succeed ⟨title, ctr, len, off, sec⟩ (Memory.bytes pt))

/-- FA.INIT's pseudocode (R100). -/
def State.initAttempt (s : State) : State :=
  { s with frameOff := some 0, ct := some Memory.clear, phase := .faChkstart }

/-- The state CONSTRUCT leaves (R40, R160). -/
def State.constructWith (s : State) (key : Vector Byte 16) (profile : Profile) : State :=
  { s.dropEphemeral with
    constructed := true, key := key, profile := profile, outcome := .none, phase := .idle, raw := Memory.clear }

/-! ## Numeric codes (R180) -/

/-- The code of an error variant: class in the high nibble, variant in the low nibble (R180). -/
def BlockError.code : BlockError → Byte
  | .framing .badStartMarker => 0x11
  | .framing .lengthMismatch => 0x12
  | .framing .truncated => 0x13
  | .framing .badStopMarker => 0x14
  | .framing .badChecksum => 0x15
  | .header .tooShort => 0x21
  | .header .unsupportedCipher => 0x22
  | .header .unsupportedTitleLength => 0x23
  | .header .malformedLength => 0x24
  | .header .lengthInconsistent => 0x25
  | .header .unsupportedSecurityByte => 0x26
  | .decrypt .authenticationFailed => 0x31
  | .decrypt .invalidPlaintext => 0x32

/-- The codes of the downstream decoder's errors, which the block never raises (R180, R194). -/
def DownstreamError.code : DownstreamError → Byte
  | .unexpectedType => 0x41
  | .unexpectedCodeLength => 0x42
  | .unsupportedMedium => 0x43
  | .unsupportedDataType => 0x44

/-- OUTCOME rendered as a byte, 0x00 for no error (R180). -/
def TerminalOutcome.code : TerminalOutcome → Byte
  | .none => 0x00
  | .ok => 0x00
  | .abort e _ => e.code

end Sys2Proof.Machine
end

