-- ==== Sys2Proof/Machine/Operands.lean ====
section
/-! DEFINITION. The operand forms: offsets inside a frame (R71), inside the secure header (R77) and inside the plaintext
(R83), and the three length-field forms (R78 to R80). -/

namespace Sys2Proof.Machine

/-! ## Inside a frame at offset `f` of RAW (R71) -/

/-- rem = RAWLEN - F (41_frame_assembler.md). -/
def remaining (s : State) (f : Nat) : Nat := s.rawLen - f

/-- HEADER_INTRO_LENGTH + L + FOOTER_LENGTH = L + 6, the size of a frame (R70). -/
def frameSize (len : Byte) : Nat := headerIntroLength + len.toNat + footerLength

/-- The stop byte, F + L + 5 (R71, R104). -/
def stopOffset (f : Nat) (len : Byte) : Nat := f + headerIntroLength + len.toNat + footerLength - 1

/-- The first byte the checksum sums, F + 4 (R105). -/
def bodyOffset (f : Nat) : Nat := f + headerIntroLength

/-- The checksum byte, F + 4 + L (R71). -/
def checksumOffset (f : Nat) (len : Byte) : Nat := f + headerIntroLength + len.toNat

/-- The payload slice, F + 4 + N_CI (R71). -/
def payloadOffset (p : Params) (f : Nat) : Nat := f + headerIntroLength + p.nCi.val

/-- L - N_CI, the length of the payload slice, formed only where L ≥ N_CI (R71, R112). -/
def payloadLength (p : Params) (len : Byte) : Nat := len.toNat - p.nCi.val

/-! ## Inside the secure header in CT, shifted by HDR_OFF (R77) -/

/-- The cipher tag. -/
abbrev tagOffset : Nat := 0
/-- The system-title length. -/
abbrev titleLenOffset : Nat := 1
/-- The system title, 8 bytes. -/
abbrev titleOffset : Nat := 2
/-- The length field. -/
abbrev lengthFieldOffset : Nat := 10
/-- The security-control byte, 11 + H. -/
def secByteOffset (h : BitVec 2) : Nat := 11 + h.toNat
/-- The frame counter, 12 + H, 4 bytes. -/
def frameCtrOffset (h : BitVec 2) : Nat := 12 + h.toNat
/-- The ciphertext and tag, 16 + H, MSG_LEN bytes. -/
def cipherOffset (h : BitVec 2) : Nat := fixedHeaderLen + h.toNat

/-- 16 + HDR_OFF + MSG_LEN: the one length of CT that is consistent with a header (R125, D11). -/
def consistentLength (h : BitVec 2) (len : BitVec 16) : Nat := fixedHeaderLen + h.toNat + len.toNat

/-- A length field read: LENF and HDR_OFF (R78 to R80). -/
structure LengthField where
  lenf : BitVec 16
  hdrOff : BitVec 2
  deriving DecidableEq, Repr

/-- Form G1, one byte (R78). -/
def formG1 (b : Byte) : LengthField := ⟨zext16 b, 0⟩
/-- Form G3, two bytes after 82 (R79). -/
def formG3 (hi lo : Byte) : LengthField := ⟨be16 hi lo, 2⟩
/-- Form V2, the byte after 81 (R80). -/
def formV2 (b : Byte) : LengthField := ⟨zext16 b, 1⟩

/-- Whether three bytes are the marker 81 F8 20 of form V2 (R80). -/
def isV2Marker (b0 b1 b2 : Byte) : Bool := b0 == vqLenMark && b1 == vqMarkFirst && b2 == vqMarkSecond

/-- LENF - LEN_CORRECTION, formed only where LENF ≥ LEN_CORRECTION (R81, R125). -/
def messageLength (p : Params) (lenf : BitVec 16) : BitVec 16 := BitVec.ofNat 16 (lenf.toNat - p.lenCorrection)

/-- Whether a security-control byte is accepted (R126). -/
def secByteAccepted (b : Byte) : Bool := secBytes.contains b

/-! ## Inside the plaintext (R83) -/

/-- The structure tag. -/
abbrev structTagOffset : Nat := 0

/-- Whether the two bytes that are examined are right (R83, R142). -/
def plaintextAccepted (p : Params) (tag count : Byte) : Bool := tag == p.structTag && count == ptCountValue

/-! ## The buffer's capacity (R12) -/

/-- RAWBUF_CAP as a number of bytes; nothing where there is no bound (R12). -/
def bufferLimit (p : Params) : Option Nat :=
  match p.rawBufCap with
  | .unbounded => none
  | .onePlus n => some (1 + n)

/-- RAWLEN = RAWBUF_CAP (R161); never where there is no bound. -/
def rawFull (s : State) : Bool := bufferLimit s.params == some s.rawLen

end Sys2Proof.Machine
end

