-- ==== Sys2Proof/Machine/Decryptor.lean ====
section
/-! DEFINITION. The Decryptor interface operations (43_decryptor_interface.md R140 to R142). -/

namespace Sys2Proof.Machine

/-- SYS_TITLE ++ FRAME_CTR, the 12 bytes of the IV (R82). -/
def ivOf (title : Vector Byte 8) (ctr : Vector Byte 4) : Vector Byte 12 := title ++ ctr

/-- DX.IV (R140). -/
def execDxIv (s : State) : StepResult :=
  need .sysTitle s.sysTitle fun title =>
  need .frameCtr s.frameCtr fun ctr =>
  .next { s with iv := some (ivOf title ctr), phase := .dxGcm }

/-- DX.GCM (R141): one call of the primitive with empty additional authenticated data on the MSG_LEN bytes after the
header; on AuthFail nothing is written to PT. -/
def execDxGcm (s : State) : StepResult :=
  need .iv s.iv fun iv =>
  need .hdrOff s.hdrOff fun h =>
  need .msgLen s.msgLen fun len =>
  need .ct s.ct fun ct =>
  memRead .ct ct (cipherOffset h) len.toNat fun data =>
  match gcm s.params.gcm s.key iv [] data with
  | .authFail => abort s (.decrypt .authenticationFailed) .none
  | .ok p => .next { s with pt := some (Memory.ofBytes p), phase := .dxChkpt }

/-- DX.CHKPT (R142): a plaintext of at least six bytes, the structure tag and the record count; then the success action.
Where one of them is wrong, InvalidPlaintext. -/
def execDxChkpt (s : State) : StepResult :=
  need .msgLen s.msgLen fun len =>
  if len.toNat < ptCountOffset + 1 then abort s (.decrypt .invalidPlaintext) .none
  else
    need .pt s.pt fun pt =>
    memReadByte .pt pt structTagOffset fun tag =>
    memReadByte .pt pt ptCountOffset fun count =>
    if plaintextAccepted s.params tag count then successAction s
    else abort s (.decrypt .invalidPlaintext) .none

end Sys2Proof.Machine
end

