-- ==== Sys2Proof/Machine/FrameAssembler.lean ====
section
/-! DEFINITION. The Frame Assembler operations (41_frame_assembler.md R100 to R107). -/

namespace Sys2Proof.Machine

/-- FA.INIT (R100). -/
def execFaInit (s : State) : StepResult := .next s.initAttempt

/-- FA.CHKSTART (R101): four header bytes present, both start markers right. -/
def execFaChkstart (s : State) : StepResult :=
  need .frameOff s.frameOff fun f =>
  if remaining s f < headerIntroLength then abort s (.framing .truncated) (.frameOff f)
  else
    memReadByte .raw s.raw (f + start1Offset) fun start1 =>
    memReadByte .raw s.raw (f + start2Offset) fun start2 =>
    if start1 ≠ startMarker ∨ start2 ≠ startMarker then abort s (.framing .badStartMarker) (.frameOff f)
    else .next { s with phase := .faChklen }

/-- FA.CHKLEN (R102): the two length bytes are equal. -/
def execFaChklen (s : State) : StepResult :=
  need .frameOff s.frameOff fun f =>
  memReadByte .raw s.raw (f + len1Offset) fun len1 =>
  memReadByte .raw s.raw (f + len2Offset) fun len2 =>
  if len1 ≠ len2 then abort s (.framing .lengthMismatch) (.frameOff f)
  else .next { s with phase := .faChksize }

/-- FA.CHKSIZE (R103): L from the length byte, then the document's test L + 3 and the bounds test L + 6
(90_conflicts.md C2). -/
def execFaChksize (s : State) : StepResult :=
  need .frameOff s.frameOff fun f =>
  memReadByte .raw s.raw (f + len1Offset) fun len =>
  if remaining s f < len.toNat + sizeSlack then abort s (.framing .truncated) (.frameOff f)
  else if remaining s f < frameSize len then abort s (.framing .truncated) (.frameOff f)
  else .next { s with l := some len, phase := .faChkstop }

/-- FA.CHKSTOP (R104): the stop byte; the checksum follows only where CHECKSUM_VERIFY = 1. -/
def execFaChkstop (s : State) : StepResult :=
  need .frameOff s.frameOff fun f =>
  need .l s.l fun len =>
  memReadByte .raw s.raw (stopOffset f len) fun stop =>
  if stop ≠ stopMarker then abort s (.framing .badStopMarker) (.frameOff f)
  else .next { s with phase := if s.params.checksumVerify then .faChksum else .faAppend }

/-- FA.CHKSUM (R105): the sum modulo 256 of the L bytes after the second start marker. Only an instance with
CHECKSUM_VERIFY = 1 ever has PHASE at FA_CHKSUM (log 11). -/
def execFaChksum (s : State) : StepResult :=
  need .frameOff s.frameOff fun f =>
  need .l s.l fun len =>
  memRead .raw s.raw (bodyOffset f) len.toNat fun body =>
  memReadByte .raw s.raw (checksumOffset f len) fun checksum =>
  if byteSum body ≠ checksum then abort s (.framing .badChecksum) (.frameOff f)
  else .next { s with phase := .faAppend }

/-- FA.APPEND (R106): the payload slice to the end of CT; a frame too short for its control-information bytes is
Truncated (92_eei_decisions.md D7). -/
def execFaAppend (s : State) : StepResult :=
  need .frameOff s.frameOff fun f =>
  need .l s.l fun len =>
  if len.toNat < s.params.nCi.val then abort s (.framing .truncated) (.frameOff f)
  else
    need .ct s.ct fun ct =>
    memRead .raw s.raw (payloadOffset s.params f) (payloadLength s.params len) fun slice =>
    .next { s with ct := some (Memory.append ct slice), phase := .faAdvance }

/-- FA.ADVANCE (R107): to the next frame, or to the header parser where RAW is used up. -/
def execFaAdvance (s : State) : StepResult :=
  need .frameOff s.frameOff fun f =>
  need .l s.l fun len =>
  .next { s with
    frameOff := some (f + frameSize len)
    phase := if f + frameSize len ≥ s.rawLen then .shChkmin else .faChkstart }

end Sys2Proof.Machine
end

