-- ==== Sys2Proof/Machine/HeaderParser.lean ====
section
/-! DEFINITION. The Secure-Header Parser operations (42_secure_header_parser.md R120 to R127). -/

namespace Sys2Proof.Machine

/-- SH.CHKMIN (R120): at least 20 bytes of ciphertext. -/
def execShChkmin (s : State) : StepResult :=
  need .ct s.ct fun ct =>
  if ct.length < minCtLen then abort s (.header .tooShort) (.ctLen ct.length)
  else .next { s with phase := .shChktag }

/-- SH.CHKTAG (R121): the cipher tag. -/
def execShChktag (s : State) : StepResult :=
  need .ct s.ct fun ct =>
  memReadByte .ct ct tagOffset fun tag =>
  if tag ≠ cipherTag then abort s (.header .unsupportedCipher) (.byte tag)
  else .next { s with phase := .shChkstl }

/-- SH.CHKSTL (R122): the system-title length. -/
def execShChkstl (s : State) : StepResult :=
  need .ct s.ct fun ct =>
  memReadByte .ct ct titleLenOffset fun len =>
  if len.toNat ≠ titleLen then abort s (.header .unsupportedTitleLength) (.byte len)
  else .next { s with phase := .shLen }

/-- Write LENF and HDR_OFF and go on to SH.CONS (R123, R124). -/
def State.latchLength (s : State) (v : LengthField) : State :=
  { s with lenf := some v.lenf, hdrOff := some v.hdrOff, phase := .shCons }

/-- SH.LEN.GEN (R123), PROFILE = Generic: form G3 after 82, else form G1. It raises nothing; the two bytes after the
first are read only in form G3. -/
def execShLenGen (s : State) : StepResult :=
  need .ct s.ct fun ct =>
  memReadByte .ct ct lengthFieldOffset fun b =>
  if b = twoByteLenMark then
    memReadByte .ct ct (lengthFieldOffset + 1) fun hi =>
    memReadByte .ct ct (lengthFieldOffset + 2) fun lo =>
    .next (s.latchLength (formG3 hi lo))
  else .next (s.latchLength (formG1 b))

/-- SH.LEN.VQ (R124), PROFILE = VendorQuirk: the sequence 81 F8 20 and no other. -/
def execShLenVq (s : State) : StepResult :=
  need .ct s.ct fun ct =>
  memReadByte .ct ct lengthFieldOffset fun b0 =>
  memReadByte .ct ct (lengthFieldOffset + 1) fun b1 =>
  memReadByte .ct ct (lengthFieldOffset + 2) fun b2 =>
  if isV2Marker b0 b1 b2 then .next (s.latchLength (formV2 b1))
  else abort s (.header .malformedLength) (.bytes [b0, b1, b2])

/-- SH.CONS (R125): the correction, then the consistency of the declared length with CTLEN, evaluated as the equation
CTLEN = 16 + HDR_OFF + MSG_LEN (D11, log 16). -/
def execShCons (s : State) : StepResult :=
  need .lenf s.lenf fun lenf =>
  need .hdrOff s.hdrOff fun h =>
  need .ct s.ct fun ct =>
  if lenf.toNat < s.params.lenCorrection then abort s (.header .lengthInconsistent) (.lenf lenf)
  else if ct.length ≠ consistentLength h (messageLength s.params lenf) then
    abort s (.header .lengthInconsistent) (.lenf lenf)
  else .next { s with msgLen := some (messageLength s.params lenf), phase := .shChksec }

/-- SH.CHKSEC (R126): the security-control byte. -/
def execShChksec (s : State) : StepResult :=
  need .hdrOff s.hdrOff fun h =>
  need .ct s.ct fun ct =>
  memReadByte .ct ct (secByteOffset h) fun b =>
  if secByteAccepted b then .next { s with secByte := some b, phase := .shLatch }
  else abort s (.header .unsupportedSecurityByte) (.byte b)

/-- SH.LATCH (R127): the system title and the frame counter, in wire order. -/
def execShLatch (s : State) : StepResult :=
  need .hdrOff s.hdrOff fun h =>
  need .ct s.ct fun ct =>
  memReadVec .ct ct titleOffset 8 fun title =>
  memReadVec .ct ct (frameCtrOffset h) 4 fun ctr =>
  .next { s with sysTitle := some title, frameCtr := some ctr, phase := .dxIv }

end Sys2Proof.Machine
end

