-- ==== Sys2Proof/Machine/Flags.lean ====
section
/-! DEFINITION. Flags: the block has no condition codes, and no operation sets a flag (10_state.md R25). The only status
derived from state is BUSY. -/

namespace Sys2Proof.Machine

/-- BUSY = (PHASE ≠ IDLE) (R25). -/
def State.busy (s : State) : Bool := s.phase != .idle

end Sys2Proof.Machine
end

