-- ==== Sys2Proof/Machine/HostTransactions.lean ====
section
/-! DEFINITION. The host transactions CONSTRUCT, PUSH and TRIGGER, and the success action HANDOFF
(44_pipeline_and_host.md R160 to R167). -/

namespace Sys2Proof.Machine

/-- CONSTRUCT(key, profile) (R160): the block's reset, once and first; a key that has not 16 bytes is not admitted. -/
def execConstruct (key : ByteString) (profile : Profile) (s : State) : StepResult :=
  match toVector? 16 key with
  | none => .refused .keyLength
  | some k => if s.constructed then .refused .alreadyConstructed else .next (s.constructWith k profile)

/-- PUSH(b) (R161): append one byte to RAW, unexamined; only in IDLE and only where RAW is not full. -/
def execPush (b : Byte) (s : State) : StepResult :=
  if !s.constructed then .refused .notConstructed
  else if s.busy then .refused .busy
  else if rawFull s then .refused .bufferFull
  else .next { s with raw := Memory.append s.raw [b] }

/-- TRIGGER: nothing on an empty buffer (R162); else FA.INIT, after which the sequencer runs the attempt (R163, R164). -/
def execTrigger (s : State) : StepResult :=
  if !s.constructed then .refused .notConstructed
  else if s.busy then .refused .busy
  else if s.rawLen = 0 then .next s
  else .next s.initAttempt

/-- HANDOFF (R167): the success action. -/
def execHandoff (s : State) : StepResult := successAction s

end Sys2Proof.Machine
end

