-- ==== Sys2Proof/Machine/Dispatch.lean ====
section
/-! DEFINITION. One arm per operation of opcode_table.json, each one call of its meaning. -/

namespace Sys2Proof.Machine

def exec (i : Instr) (s : State) : Host.Outcome State Fault Refusal :=
  match i with
  -- host transactions
  | .construct key profile => Sys2Proof.Machine.execConstruct key profile s
  | .push b => Sys2Proof.Machine.execPush b s
  | .trigger => Sys2Proof.Machine.execTrigger s
  -- Frame Assembler
  | .faInit => Sys2Proof.Machine.execFaInit s
  | .faChkstart => Sys2Proof.Machine.execFaChkstart s
  | .faChklen => Sys2Proof.Machine.execFaChklen s
  | .faChksize => Sys2Proof.Machine.execFaChksize s
  | .faChkstop => Sys2Proof.Machine.execFaChkstop s
  | .faChksum => Sys2Proof.Machine.execFaChksum s
  | .faAppend => Sys2Proof.Machine.execFaAppend s
  | .faAdvance => Sys2Proof.Machine.execFaAdvance s
  -- Secure-Header Parser
  | .shChkmin => Sys2Proof.Machine.execShChkmin s
  | .shChktag => Sys2Proof.Machine.execShChktag s
  | .shChkstl => Sys2Proof.Machine.execShChkstl s
  | .shLenGen => Sys2Proof.Machine.execShLenGen s
  | .shLenVq => Sys2Proof.Machine.execShLenVq s
  | .shCons => Sys2Proof.Machine.execShCons s
  | .shChksec => Sys2Proof.Machine.execShChksec s
  | .shLatch => Sys2Proof.Machine.execShLatch s
  -- Decryptor interface and handoff
  | .dxIv => Sys2Proof.Machine.execDxIv s
  | .dxGcm => Sys2Proof.Machine.execDxGcm s
  | .dxChkpt => Sys2Proof.Machine.execDxChkpt s
  | .handoff => Sys2Proof.Machine.execHandoff s

end Sys2Proof.Machine
end

