-- ==== Sys2Proof/WellFormed.lean ====
section
/-! DEFINITION. Which operations are well formed: the one operand with a condition on it is CONSTRUCT's key. -/

namespace Sys2Proof

/-- CONSTRUCT's key has 16 bytes (R22, R160, 92_eei_decisions.md D23). Every byte is a legal operand of PUSH (R161), and
the other operations have no operand. -/
def Instr.wellFormed : Instr → Bool
  | .construct key _ => key.length == 16
  | .push _ | .trigger
  | .faInit | .faChkstart | .faChklen | .faChksize | .faChkstop | .faChksum | .faAppend | .faAdvance
  | .shChkmin | .shChktag | .shChkstl | .shLenGen | .shLenVq | .shCons | .shChksec | .shLatch
  | .dxIv | .dxGcm | .dxChkpt | .handoff => true

end Sys2Proof
end

