-- ==== Sys2Proof/Machine/Sequencer.lean ====
section
/-! DEFINITION. The sequencer: which operation runs next (44_pipeline_and_host.md R163 to R165), and the placing of a
table word where the machine takes its next operation from. -/

namespace Sys2Proof.Machine

/-- The operation that PHASE, and at SH_LEN PROFILE, selects during an attempt (R165); nothing in IDLE. -/
def sequencedOperation (phase : Phase) (profile : Profile) : Option Instr :=
  match phase with
  | .idle => none
  | .faChkstart => some .faChkstart
  | .faChklen => some .faChklen
  | .faChksize => some .faChksize
  | .faChkstop => some .faChkstop
  | .faChksum => some .faChksum
  | .faAppend => some .faAppend
  | .faAdvance => some .faAdvance
  | .shChkmin => some .shChkmin
  | .shChktag => some .shChktag
  | .shChkstl => some .shChkstl
  | .shLen =>
    match profile with
    | .generic => some .shLenGen
    | .vendorQuirk => some .shLenVq
  | .shCons => some .shCons
  | .shChksec => some .shChksec
  | .shLatch => some .shLatch
  | .dxIv => some .dxIv
  | .dxGcm => some .dxGcm
  | .dxChkpt => some .dxChkpt

/-- What the sequencer does next. -/
inductive Selection
  /-- Run an operation on a state. -/
  | run (i : Instr) (s : State)
  /-- In IDLE, with no transaction of the host to come: wait (R207). -/
  | wait
  /-- In IDLE, with a line that is no host transaction: no step (R88). -/
  | reject (r : Refusal)
  deriving DecidableEq, Repr

/-- During an attempt the operation that PHASE selects; in IDLE the host's next transaction, taken off `pending` (R165,
R171; log 2). DESIGN CHOICE (log 24): a line whose transaction is not admitted (R19, R161, R216), or that is no host
transaction, is not dropped: its refusal carries no state, the line stays at the head of `pending`, and no later line
runs by `step` until `pending` is changed from outside. -/
def selectOperation (s : State) : Selection :=
  match sequencedOperation s.phase s.profile with
  | some i => .run i s
  | none =>
    match s.pending with
    | [] => .wait
    | line :: rest =>
      match decode line with
      | .error e => .reject (.undecodable e)
      | .ok i => if i.isHostTransaction then .run i { s with pending := rest } else .reject .notHostTransaction

/-- Give the host a stimulus to perform (R88): its lines, every PUSHN expanded, after those it has already. -/
def State.withStimulus (s : State) (lines : List ByteString) : Except DecodeError State :=
  match expandStimulus lines with
  | .ok ls => .ok { s with pending := s.pending ++ ls }
  | .error e => .error e

/-- The bytes `bs` where the operation `i` examines them, with the registers that say so and PHASE at that operation
(R71, R77, R83). DX.CHKPT gets as well the header that its success action hands out. Operations without a pattern in
opcode_table.json leave the state as it is (log 18). -/
def placePattern (i : Instr) (bs : ByteString) (s : State) : State :=
  match i with
  | .faChkstart => { s with raw := Memory.ofBytes bs, frameOff := some 0, phase := .faChkstart }
  | .faChklen => { s with raw := Memory.ofBytes bs, frameOff := some 0, phase := .faChklen }
  | .faChkstop =>
    { s with raw := Memory.ofBytes (List.replicate 5 0 ++ bs), frameOff := some 0, l := some 0, phase := .faChkstop }
  | .faChksum =>
    { s with raw := Memory.ofBytes (List.replicate 4 0 ++ bs), frameOff := some 0, l := some 0, phase := .faChksum }
  | .shChktag => { s with ct := some (Memory.ofBytes bs), phase := .shChktag }
  | .shChkstl => { s with ct := some (Memory.ofBytes ([0xDB] ++ bs)), phase := .shChkstl }
  | .shLenGen => { s with ct := some (Memory.ofBytes (List.replicate 10 0 ++ bs)), profile := .generic, phase := .shLen }
  | .shLenVq =>
    { s with ct := some (Memory.ofBytes (List.replicate 10 0 ++ bs)), profile := .vendorQuirk, phase := .shLen }
  | .shChksec =>
    { s with ct := some (Memory.ofBytes (List.replicate 11 0 ++ bs)), hdrOff := some 0, phase := .shChksec }
  | .dxChkpt =>
    { s with
      pt := some (Memory.ofBytes bs), msgLen := some (BitVec.ofNat 16 bs.length), hdrOff := some 0,
      secByte := some 0x20, sysTitle := some (Vector.replicate 8 0), frameCtr := some (Vector.replicate 4 0),
      phase := .dxChkpt }
  | .construct _ _ | .push _ | .trigger | .faInit | .faChksize | .faAppend | .faAdvance | .shChkmin | .shCons | .shLatch
  | .dxIv | .dxGcm | .handoff => s

/-- The operation a table word shows, placed with the word's bytes; a word that no row's pattern matches changes
nothing. -/
def placeTableWord (nbits w : Nat) (s : State) : State :=
  match decodeTableWord nbits w with
  | some i => placePattern i (bytesOfWord (nbits / 8) w) s
  | none => s

end Sys2Proof.Machine
end

