-- ==== Sys2Proof/Machine/Step.lean ====
section
/-! DEFINITION. One step of the machine: the operation the sequencer selects, run (44_pipeline_and_host.md R164, R165). -/

namespace Sys2Proof.Machine

/-- One operation. In IDLE with nothing asked by the host the block waits, which changes nothing (R207; log 20). -/
def step (s : State) : Host.Outcome State Fault Refusal :=
  match selectOperation s with
  | .run i t => exec i t
  | .wait => .next s
  | .reject r => .refused r

/-- `s` with a word of opcode_table.json placed so that the very next step runs the operation whose pattern it shows
(log 18). -/
def State.withFetchWord (s : State) (nbits w : Nat) : State := placeTableWord nbits w s

end Sys2Proof.Machine
end

