-- ==== Sys2Proof/Machine/Attempt.lean ====
section
/-! DEFINITION. The whole attempt as functions of the buffers: Assemble (R108), ParseHeader (R128), Decrypt (R148), Decode
(R169). They read byte strings and know no PHASE and no register; an error carries the info it records (log 14). -/

namespace Sys2Proof.Machine

/-- The loop of Assemble (R108) from offset `f` with `ct` collected so far. Every round that goes on moves `f` by at least
6 (R109), so `rounds` rounds are enough once 6 * rounds exceeds the bytes left. -/
def assembleFrom (p : Params) (raw : ByteString) :
    (rounds f : Nat) → (ct : ByteString) → Except (FramingError × Nat) ByteString
  | 0, f, _ => .error (.truncated, f)
  | rounds + 1, f, ct =>
    if raw.length - f < 4 then .error (.truncated, f)
    else if raw[f]? ≠ some 0x68 ∨ raw[f + 3]? ≠ some 0x68 then .error (.badStartMarker, f)
    else if raw[f + 1]? ≠ raw[f + 2]? then .error (.lengthMismatch, f)
    else
      let len := (raw.getD (f + 1) 0).toNat
      if raw.length - f < len + 6 then .error (.truncated, f)
      else if raw[f + len + 5]? ≠ some 0x16 then .error (.badStopMarker, f)
      else if p.checksumVerify = true ∧ some (byteSum ((raw.drop (f + 4)).take len)) ≠ raw[f + 4 + len]? then
        .error (.badChecksum, f)
      else if len < p.nCi.val then .error (.truncated, f)
      else
        let ct := ct ++ (raw.drop (f + 4 + p.nCi.val)).take (len - p.nCi.val)
        if f + len + 6 ≥ raw.length then .ok ct else assembleFrom p raw rounds (f + len + 6) ct

/-- Assemble(RAW) (R108), for at least one byte. -/
def assemble (p : Params) (raw : ByteString) : Except (FramingError × Nat) ByteString :=
  assembleFrom p raw (raw.length / 6 + 1) 0 []

/-- The length field of a ciphertext under a profile (R128): LENF and HDR_OFF. -/
def parseLength (ct : ByteString) : Profile → Except (HeaderError × ErrorInfo) LengthField
  | .generic =>
    if ct.getD 10 0 = 0x82 then .ok ⟨BitVec.ofNat 16 (256 * (ct.getD 11 0).toNat + (ct.getD 12 0).toNat), 2⟩
    else .ok ⟨(ct.getD 10 0).setWidth 16, 0⟩
  | .vendorQuirk =>
    if ct.getD 10 0 = 0x81 ∧ ct.getD 11 0 = 0xF8 ∧ ct.getD 12 0 = 0x20 then .ok ⟨(ct.getD 11 0).setWidth 16, 1⟩
    else .error (.malformedLength, .bytes [ct.getD 10 0, ct.getD 11 0, ct.getD 12 0])

/-- `n` bytes of a string as a register's value; bytes past its end would read as 0 and are never asked for. -/
def bytesAt (bs : ByteString) (a n : Nat) : Vector Byte n := Vector.ofFn fun i => bs.getD (a + i.val) 0

/-- ParseHeader(CT, PROFILE) (R128). -/
def parseHeader (p : Params) (ct : ByteString) (profile : Profile) : Except (HeaderError × ErrorInfo) SecureHeader :=
  if ct.length < 20 then .error (.tooShort, .ctLen ct.length)
  else if ct.getD 0 0 ≠ 0xDB then .error (.unsupportedCipher, .byte (ct.getD 0 0))
  else if ct.getD 1 0 ≠ 0x08 then .error (.unsupportedTitleLength, .byte (ct.getD 1 0))
  else
    match parseLength ct profile with
    | .error e => .error e
    | .ok v =>
      let h := v.hdrOff.toNat
      let sec := ct.getD (11 + h) 0
      if v.lenf.toNat < p.lenCorrection then .error (.lengthInconsistent, .lenf v.lenf)
      else if ct.length - 16 - h ≠ v.lenf.toNat - p.lenCorrection then .error (.lengthInconsistent, .lenf v.lenf)
      else if sec ≠ 0x20 ∧ sec ≠ 0x21 then .error (.unsupportedSecurityByte, .byte sec)
      else
        .ok { systemTitle := bytesAt ct 2 8
              frameCounter := bytesAt ct (12 + h) 4
              messageLength := BitVec.ofNat 16 (v.lenf.toNat - p.lenCorrection)
              headerOffset := v.hdrOff
              securityByte := sec }

/-- Decrypt(CT, hdr, KEY) (R148). -/
def decrypt (p : Params) (ct : ByteString) (hdr : SecureHeader) (key : Vector Byte 16) :
    Except DecryptError ByteString :=
  match gcm p.gcm key (ivOf hdr.systemTitle hdr.frameCounter) []
      ((ct.drop (16 + hdr.headerOffset.toNat)).take hdr.messageLength.toNat) with
  | .authFail => .error .authenticationFailed
  | .ok pt =>
    if hdr.messageLength.toNat < 6 then .error .invalidPlaintext
    else if pt.getD 0 0 ≠ p.structTag ∨ pt.getD 5 0 ≠ 0x0C then .error .invalidPlaintext
    else .ok pt

/-- Decode(RAW, PROFILE, KEY) (R169): Success with the header and the plaintext, or Abort with the error. -/
def decodeAttempt (p : Params) (raw : ByteString) (profile : Profile) (key : Vector Byte 16) :
    Except (BlockError × ErrorInfo) (SecureHeader × ByteString) :=
  match assemble p raw with
  | .error (e, f) => .error (.framing e, .frameOff f)
  | .ok ct =>
    match parseHeader p ct profile with
    | .error (e, info) => .error (.header e, info)
    | .ok hdr =>
      match decrypt p ct hdr key with
      | .error e => .error (.decrypt e, .none)
      | .ok pt => .ok (hdr, pt)

/-- The state a TRIGGER on a non-empty buffer ends in (R169). -/
def attemptResult (s : State) : State :=
  match decodeAttempt s.params (Memory.bytes s.raw) s.profile s.key with
  | .error (e, info) => s.raise e info
  | .ok (hdr, pt) => s.succeed hdr pt

end Sys2Proof.Machine
end

