-- ==== Sys2Proof/Safety.lean ====
section
/-! DEFINITION. What a safe run is: the invariant of every state the block can be in, what an answer without a fault is,
and the named property of the primitive (43_decryptor_interface.md R146). -/

namespace Sys2Proof.Machine

/-! ## What holds no value yet (R20, R21) -/

/-- PT holds no value before DX.GCM writes it. -/
def State.noneFromPt (s : State) : Prop := s.pt = none
/-- Nor does IV before DX.IV. -/
def State.noneFromIv (s : State) : Prop := s.iv = none ∧ s.noneFromPt
/-- Nor do SYS_TITLE and FRAME_CTR before SH.LATCH. -/
def State.noneFromTitle (s : State) : Prop := s.sysTitle = none ∧ s.frameCtr = none ∧ s.noneFromIv
/-- Nor does SEC_BYTE before SH.CHKSEC. -/
def State.noneFromSec (s : State) : Prop := s.secByte = none ∧ s.noneFromTitle
/-- Nor does MSG_LEN before SH.CONS. -/
def State.noneFromMsgLen (s : State) : Prop := s.msgLen = none ∧ s.noneFromSec
/-- Nor do LENF and HDR_OFF before SH.LEN. -/
def State.noneFromLenf (s : State) : Prop := s.lenf = none ∧ s.hdrOff = none ∧ s.noneFromMsgLen
/-- Outside an attempt every ephemeral register, CT and PT hold no value (R40, R41). -/
def State.noEphemeral (s : State) : Prop :=
  s.frameOff = none ∧ s.l = none ∧ s.ct = none ∧ s.noneFromLenf

/-! ## The size invariants inside the Frame Assembler (R56, R66) -/

/-- FRAME_OFF points at a frame in RAW with at least `size` bytes left, and CT is no longer than FRAME_OFF. -/
def State.inFrame (s : State) (size : Nat) : Prop :=
  ∃ f ct, s.frameOff = some f ∧ s.ct = some ct ∧ Memory.wf ct = true ∧ ct.length ≤ f ∧
    f < s.rawLen ∧ f + size ≤ s.rawLen ∧ s.noneFromLenf

/-- As `inFrame`, with L known and the whole frame of L + 6 bytes present. -/
def State.inWholeFrame (s : State) : Prop := ∃ len, s.l = some len ∧ s.inFrame (frameSize len)

/-- After FA.APPEND: CT may have grown by the frame's payload. -/
def State.afterAppend (s : State) : Prop :=
  ∃ f len ct, s.frameOff = some f ∧ s.l = some len ∧ s.ct = some ct ∧ Memory.wf ct = true ∧
    ct.length ≤ f + len.toNat ∧ f + frameSize len ≤ s.rawLen ∧ s.noneFromLenf

/-! ## What the header parser has established -/

/-- The assembler has ended: FRAME_OFF = RAWLEN, and CT is the whole ciphertext, of at least `size` bytes (R66, R107). -/
def State.assembled (s : State) (size : Nat) : Prop :=
  ∃ ct len, s.frameOff = some s.rawLen ∧ s.l = some len ∧ s.ct = some ct ∧ Memory.wf ct = true ∧
    ct.length ≤ s.rawLen ∧ size ≤ ct.length ∧ 0 < s.rawLen

/-- LENF and HDR_OFF hold what a length form of the profile gives (R78 to R80). -/
def State.lengthParsed (s : State) : Prop :=
  ∃ v : LengthField, s.lenf = some v.lenf ∧ s.hdrOff = some v.hdrOff ∧
    match s.profile with
    | .generic => v.hdrOff = 0 ∨ v.hdrOff = 2
    | .vendorQuirk => v.hdrOff = 1 ∧ v.lenf = 248 ∧ s.readByte? .ct 12 = some 0x20

/-- MSG_LEN is LENF less the correction, and CTLEN = 16 + HDR_OFF + MSG_LEN (R66, R125). -/
def State.lengthConsistent (s : State) : Prop :=
  ∃ v : LengthField, ∃ len ct, s.lenf = some v.lenf ∧ s.hdrOff = some v.hdrOff ∧ s.msgLen = some len ∧
    s.ct = some ct ∧ len.toNat + s.params.lenCorrection = v.lenf.toNat ∧ ct.length = consistentLength v.hdrOff len

/-- SEC_BYTE holds one of the two legal values (R34). -/
def State.secByteLegal (s : State) : Prop := s.secByte = some 0x20 ∨ s.secByte = some 0x21

/-- SYS_TITLE and FRAME_CTR hold values. -/
def State.titleLatched (s : State) : Prop := ∃ title ctr, s.sysTitle = some title ∧ s.frameCtr = some ctr

/-- IV is SYS_TITLE followed by FRAME_CTR (R37, R82). -/
def State.ivBuilt (s : State) : Prop :=
  ∃ title ctr, s.sysTitle = some title ∧ s.frameCtr = some ctr ∧ s.iv = some (ivOf title ctr)

/-- PT has MSG_LEN bytes (R53). -/
def State.plaintextSized (s : State) : Prop :=
  ∃ pt len, s.pt = some pt ∧ s.msgLen = some len ∧ Memory.wf pt = true ∧ pt.length = len.toNat

/-- What PHASE says about the ephemeral state. -/
def State.phaseInv (s : State) : Prop :=
  match s.phase with
  | .idle => s.noEphemeral
  | .faChkstart => s.inFrame 0
  | .faChklen => s.inFrame headerIntroLength
  | .faChksize => s.inFrame headerIntroLength
  | .faChkstop => s.inWholeFrame
  | .faChksum => s.inWholeFrame ∧ s.params.checksumVerify = true
  | .faAppend => s.inWholeFrame
  | .faAdvance => s.afterAppend
  | .shChkmin => s.assembled 0 ∧ s.noneFromLenf
  | .shChktag => s.assembled minCtLen ∧ s.noneFromLenf
  | .shChkstl => s.assembled minCtLen ∧ s.noneFromLenf
  | .shLen => s.assembled minCtLen ∧ s.noneFromLenf
  | .shCons => s.assembled minCtLen ∧ s.lengthParsed ∧ s.noneFromMsgLen
  | .shChksec => s.assembled minCtLen ∧ s.lengthParsed ∧ s.lengthConsistent ∧ s.noneFromSec
  | .shLatch => s.assembled minCtLen ∧ s.lengthParsed ∧ s.lengthConsistent ∧ s.secByteLegal ∧ s.noneFromTitle
  | .dxIv =>
    s.assembled minCtLen ∧ s.lengthParsed ∧ s.lengthConsistent ∧ s.secByteLegal ∧ s.titleLatched ∧ s.noneFromIv
  | .dxGcm =>
    s.assembled minCtLen ∧ s.lengthParsed ∧ s.lengthConsistent ∧ s.secByteLegal ∧ s.ivBuilt ∧ s.noneFromPt
  | .dxChkpt =>
    s.assembled minCtLen ∧ s.lengthParsed ∧ s.lengthConsistent ∧ s.secByteLegal ∧ s.ivBuilt ∧ s.plaintextSized

/-! ## The invariant -/

/-- RAWLEN is at most RAWBUF_CAP (R28). -/
def State.withinCapacity (s : State) : Prop :=
  match bufferLimit s.params with
  | none => True
  | some n => s.rawLen ≤ n

/-- OUTCOME agrees with the last event emitted: none yet, or the one of the last terminal outcome (R24, R170, R172). -/
def State.outcomeMatchesEvents (s : State) : Prop :=
  match s.events.getLast? with
  | none => s.outcome = .none
  | some (.plaintextReady _ _ _) => s.outcome = .ok
  | some (.aborted e) => ∃ info, s.outcome = .abort e info

/-- Before CONSTRUCT the block does not exist: nothing has been pushed, run or emitted (R22, R212). -/
def State.emptyUntilConstructed (s : State) : Prop :=
  s.constructed = false → s.phase = .idle ∧ s.raw = [] ∧ s.outcome = .none ∧ s.events = []

/-- What holds of every state the block can be in. -/
def State.Inv (s : State) : Prop :=
  Memory.wf s.raw = true ∧ s.withinCapacity ∧ s.emptyUntilConstructed ∧ s.outcomeMatchesEvents ∧ s.phaseInv

/-! ## Safe answers, and the primitive's named property -/

/-- An answer that is no fault of the model: a next state, or that there is no step. -/
def isSafe (r : StepResult) : Prop := ∀ f, r ≠ .fault f

/-- `Gcm_authentic` (R146): for `data` produced by the matching encryption under `(key, iv)`, the primitive answers
AuthFail to every `data'` that differs from it, in a bit or in its length. No rule of the block; a statement that needs it assumes
it by this name. -/
def GcmAuthentic (choice : GcmChoice) (produced : Vector Byte 16 → Vector Byte 12 → ByteString → Prop) : Prop :=
  ∀ key iv data data', produced key iv data → data' ≠ data →
    gcm choice key iv [] data' = .authFail

end Sys2Proof.Machine
end

