-- ==== Sys2Proof/Certificates/Slice0/Obligations.lean ====
section
/-! DEFINITION. The statements for the provers: what the rules of spec/ say of the operations, of the sequencer and of a
whole attempt. Numbers and byte values stand here as the rules print them, not by the model's names for them. -/

open Sys2Proof Sys2Proof.Machine

/-! ## Encodings -/

/-- R87, R88 (30_encoding.md section 7): decoding an operation's line gives the operation back, for every operation and
every operand, a CONSTRUCT key of any length included. -/
def Obligations.DecodeOfEncodeGivesInstruction : Prop :=
  ∀ i : Instr, decode (encode i) = .ok i

/-- R88: the decoder reads nothing but the notation: a line it accepts is the one line of the operation it answers. -/
def Obligations.DecodedLineIsItsEncoding : Prop :=
  ∀ (line : ByteString) (i : Instr), decode line = .ok i → line = encode i

/-- R87, R88: lines written out character by character decode to the operations they stand for, one of each family; the
lower-case digits of PUSH 6f and PUSH a6, and the name POP, are rejected by name. -/
def Obligations.WrittenLinesDecode : Prop :=
  decode [0x50, 0x55, 0x53, 0x48, 0x20, 0x36, 0x38] = .ok (.push 0x68) ∧
  decode [0x54, 0x52, 0x49, 0x47, 0x47, 0x45, 0x52] = .ok .trigger ∧
  decode [0x46, 0x41, 0x2E, 0x49, 0x4E, 0x49, 0x54] = .ok .faInit ∧
  decode [0x53, 0x48, 0x2E, 0x4C, 0x45, 0x4E, 0x2E, 0x56, 0x51] = .ok .shLenVq ∧
  decode [0x44, 0x58, 0x2E, 0x47, 0x43, 0x4D] = .ok .dxGcm ∧
  decode [0x48, 0x41, 0x4E, 0x44, 0x4F, 0x46, 0x46] = .ok .handoff ∧
  decode [0x50, 0x55, 0x53, 0x48, 0x20, 0x36, 0x66] = .error .badPushOperand ∧
  decode [0x50, 0x55, 0x53, 0x48, 0x20, 0x61, 0x36] = .error .badPushOperand ∧
  decode [0x50, 0x4F, 0x50] = .error .unknownMnemonic

/-- R72, R80, opcode_table.json: words of the table's patterns are read as the operations whose patterns they are. That
68 1D 1D 68 is read as FA.CHKLEN rather than FA.CHKSTART is the model's choice (log 18). -/
def Obligations.TableWordsDecode : Prop :=
  decodeTableWord 32 0x681D1E68 = some .faChkstart ∧
  decodeTableWord 32 0x681D1D68 = some .faChklen ∧
  decodeTableWord 8 0x16 = some .faChkstop ∧
  decodeTableWord 8 0xDB = some .shChktag ∧
  decodeTableWord 8 0x08 = some .shChkstl ∧
  decodeTableWord 24 0x820018 = some .shLenGen ∧
  decodeTableWord 24 0x81F820 = some .shLenVq ∧
  decodeTableWord 8 0x21 = some .shChksec ∧
  decodeTableWord 48 0x02010203040C = some .dxChkpt ∧
  decodeTableWord 32 0x691D1D68 = none

/-- R72: the marker, length and stop checks of FA.CHKSTART, FA.CHKLEN and FA.CHKSTOP are the match-and-mask tests on the
header word `W` and on the stop byte. -/
def Obligations.FrameChecksAreMaskTests : Prop :=
  ∀ (s : State) (f : Nat) (b0 b1 b2 b3 : Byte), s.frameOff = some f → 4 ≤ s.rawLen - f →
    Memory.read? s.raw f = some b0 → Memory.read? s.raw (f + 1) = some b1 →
    Memory.read? s.raw (f + 2) = some b2 → Memory.read? s.raw (f + 3) = some b3 →
    exec .faChkstart s =
        .next (if (b0 ++ b1 ++ b2 ++ b3 : BitVec 32) &&& 0xFF0000FF#32 = 0x68000068#32
          then { s with phase := .faChklen } else s.raise (.framing .badStartMarker) (.frameOff f)) ∧
    exec .faChklen s =
        .next (if (b0 ++ b1 ++ b2 ++ b3 : BitVec 32).extractLsb 23 16 = (b0 ++ b1 ++ b2 ++ b3 : BitVec 32).extractLsb 15 8
          then { s with phase := .faChksize } else s.raise (.framing .lengthMismatch) (.frameOff f)) ∧
    ∀ (len stop : Byte), s.l = some len → Memory.read? s.raw (f + len.toNat + 5) = some stop →
      exec .faChkstop s =
        .next (if stop = 0x16
          then { s with phase := if s.params.checksumVerify = true then .faChksum else .faAppend }
          else s.raise (.framing .badStopMarker) (.frameOff f))

/-! ## The step and the control transfers -/

/-- R165: during an attempt a step is `exec` of the operation that PHASE, and at SH_LEN PROFILE, names. -/
def Obligations.StepRunsThePhaseOperation : Prop :=
  ∀ s : State,
    (s.phase = .faChkstart → step s = exec .faChkstart s) ∧
    (s.phase = .faChklen → step s = exec .faChklen s) ∧
    (s.phase = .faChksize → step s = exec .faChksize s) ∧
    (s.phase = .faChkstop → step s = exec .faChkstop s) ∧
    (s.phase = .faChksum → step s = exec .faChksum s) ∧
    (s.phase = .faAppend → step s = exec .faAppend s) ∧
    (s.phase = .faAdvance → step s = exec .faAdvance s) ∧
    (s.phase = .shChkmin → step s = exec .shChkmin s) ∧
    (s.phase = .shChktag → step s = exec .shChktag s) ∧
    (s.phase = .shChkstl → step s = exec .shChkstl s) ∧
    (s.phase = .shLen → s.profile = .generic → step s = exec .shLenGen s) ∧
    (s.phase = .shLen → s.profile = .vendorQuirk → step s = exec .shLenVq s) ∧
    (s.phase = .shCons → step s = exec .shCons s) ∧
    (s.phase = .shChksec → step s = exec .shChksec s) ∧
    (s.phase = .shLatch → step s = exec .shLatch s) ∧
    (s.phase = .dxIv → step s = exec .dxIv s) ∧
    (s.phase = .dxGcm → step s = exec .dxGcm s) ∧
    (s.phase = .dxChkpt → step s = exec .dxChkpt s)

/-- In IDLE a step takes the host's next line: a line that decodes to a host transaction is run, the line taken off; a
line that decodes to another operation, or to none, has no step. That the host's moves stand in State as lines is the
model's choice (log 2). -/
def Obligations.StepRunsTheDecodedTransaction : Prop :=
  ∀ (s : State) (line : ByteString) (rest : List ByteString), s.phase = .idle → s.pending = line :: rest →
    (∀ i, decode line = .ok i → i.isHostTransaction = true → step s = exec i { s with pending := rest }) ∧
    (∀ i, decode line = .ok i → i.isHostTransaction = false → step s = .refused .notHostTransaction) ∧
    (∀ e, decode line = .error e → step s = .refused (.undecodable e))

/-- A word that shows an operation's pattern, placed by `withFetchWord`, is what the very next step runs. Where the word
is placed is the model's choice (log 18). -/
def Obligations.StepRunsThePlacedWord : Prop :=
  ∀ (s : State) (nbits w : Nat) (i : Instr), decodeTableWord nbits w = some i →
    step (s.withFetchWord nbits w) = exec i (s.withFetchWord nbits w)

/-- R207: in IDLE, with nothing asked of it, the block sits and nothing changes. That waiting is a step is the model's
choice (log 20). -/
def Obligations.IdleBlockWaits : Prop :=
  ∀ s : State, s.phase = .idle → s.pending = [] → step s = .next s

/-- An operation completed with PHASE at `next`, its outcome and events untouched, or raised one of `errors`. -/
def completesOrRaises (s t : State) (next : Phase) (errors : List BlockError) : Prop :=
  (t.phase = next ∧ t.outcome = s.outcome ∧ t.events = s.events) ∨ ∃ e ∈ errors, ∃ info, t = s.raise e info

/-- R165, the control-transfer table: from each PHASE the operation that runs, the PHASE it leaves when it completes,
and the errors it can raise. There are no other transfers: a step from IDLE stays in IDLE or, where RAW is not empty,
leaves FA_CHKSTART. -/
def Obligations.ControlTransfersFollowTheTable : Prop :=
  ∀ s : State,
    (s.phase = .idle → s.constructed = true → 1 ≤ s.rawLen →
      exec .trigger s = exec .faInit s ∧ ∃ t, exec .faInit s = .next t ∧ t.phase = .faChkstart) ∧
    ∀ t, step s = .next t →
      (s.phase = .idle → t.phase = .idle ∨ (t.phase = .faChkstart ∧ 1 ≤ s.rawLen)) ∧
      (s.phase = .faChkstart → exec .faChkstart s = .next t ∧
        completesOrRaises s t .faChklen [.framing .truncated, .framing .badStartMarker]) ∧
      (s.phase = .faChklen → exec .faChklen s = .next t ∧
        completesOrRaises s t .faChksize [.framing .lengthMismatch]) ∧
      (s.phase = .faChksize → exec .faChksize s = .next t ∧
        completesOrRaises s t .faChkstop [.framing .truncated]) ∧
      (s.phase = .faChkstop → exec .faChkstop s = .next t ∧
        completesOrRaises s t (if s.params.checksumVerify = true then .faChksum else .faAppend)
          [.framing .badStopMarker]) ∧
      (s.phase = .faChksum → exec .faChksum s = .next t ∧
        completesOrRaises s t .faAppend [.framing .badChecksum]) ∧
      (s.phase = .faAppend → exec .faAppend s = .next t ∧
        completesOrRaises s t .faAdvance [.framing .truncated]) ∧
      (s.phase = .faAdvance → exec .faAdvance s = .next t ∧
        ∃ f, t.frameOff = some f ∧
          completesOrRaises s t (if f ≥ s.rawLen then .shChkmin else .faChkstart) []) ∧
      (s.phase = .shChkmin → exec .shChkmin s = .next t ∧
        completesOrRaises s t .shChktag [.header .tooShort]) ∧
      (s.phase = .shChktag → exec .shChktag s = .next t ∧
        completesOrRaises s t .shChkstl [.header .unsupportedCipher]) ∧
      (s.phase = .shChkstl → exec .shChkstl s = .next t ∧
        completesOrRaises s t .shLen [.header .unsupportedTitleLength]) ∧
      (s.phase = .shLen → s.profile = .generic → exec .shLenGen s = .next t ∧
        completesOrRaises s t .shCons []) ∧
      (s.phase = .shLen → s.profile = .vendorQuirk → exec .shLenVq s = .next t ∧
        completesOrRaises s t .shCons [.header .malformedLength]) ∧
      (s.phase = .shCons → exec .shCons s = .next t ∧
        completesOrRaises s t .shChksec [.header .lengthInconsistent]) ∧
      (s.phase = .shChksec → exec .shChksec s = .next t ∧
        completesOrRaises s t .shLatch [.header .unsupportedSecurityByte]) ∧
      (s.phase = .shLatch → exec .shLatch s = .next t ∧ completesOrRaises s t .dxIv []) ∧
      (s.phase = .dxIv → exec .dxIv s = .next t ∧ completesOrRaises s t .dxGcm []) ∧
      (s.phase = .dxGcm → exec .dxGcm s = .next t ∧
        completesOrRaises s t .dxChkpt [.decrypt .authenticationFailed]) ∧
      (s.phase = .dxChkpt → exec .dxChkpt s = .next t ∧
        (exec .handoff s = .next t ∧ t.phase = .idle ∨ ∃ info, t = s.raise (.decrypt .invalidPlaintext) info))

/-! ## Host transactions -/

/-- CONSTRUCT (R160): with a 16-byte key, on a block that does not exist yet, the reset state with that key and profile;
with a key of another length (this spec's choice, D23), or a second time, not admitted. -/
def Obligations.ConstructMakesTheBlock : Prop :=
  ∀ (s : State) (key : ByteString) (profile : Profile),
    (∀ k : Vector Byte 16, k.toList = key → s.constructed = false →
      exec (.construct key profile) s = .next
        { params := s.params, constructed := true, key := k, profile := profile, outcome := .none, phase := .idle,
          raw := [], frameOff := none, l := none, ct := none, lenf := none, hdrOff := none, msgLen := none,
          secByte := none, sysTitle := none, frameCtr := none, iv := none, pt := none,
          pending := s.pending, events := s.events }) ∧
    (key.length ≠ 16 → exec (.construct key profile) s = .refused .keyLength) ∧
    (key.length = 16 → s.constructed = true → exec (.construct key profile) s = .refused .alreadyConstructed)

/-- R161, PUSH: in IDLE and below the capacity the byte goes to the end of RAW and nothing else changes; every byte of
RAW, CT and PT but the one stored at RAWLEN reads as before. While PHASE is not IDLE (D19), into a full buffer (D18), or
before CONSTRUCT, it is not admitted, this spec's choices. -/
def Obligations.PushStoresOneByte : Prop :=
  ∀ (s : State) (b : Byte),
    (s.constructed = true → s.phase = .idle → bufferLimit s.params ≠ some s.rawLen →
      exec (.push b) s = .next { s with raw := Memory.append s.raw [b] } ∧
      (Memory.append s.raw [b]).length = s.rawLen + 1 ∧
      (Memory.wf s.raw = true → ∀ (sp : Space) (a : Nat),
        ({ s with raw := Memory.append s.raw [b] } : State).readByte? sp a =
          if sp = .raw ∧ a = s.rawLen then some b else s.readByte? sp a)) ∧
    (s.constructed = true → s.phase = .idle → bufferLimit s.params = some s.rawLen →
      exec (.push b) s = .refused .bufferFull) ∧
    (s.constructed = true → s.phase ≠ .idle → exec (.push b) s = .refused .busy) ∧
    (s.constructed = false → exec (.push b) s = .refused .notConstructed)

/-- R162, TRIGGER on an empty buffer: no register, buffer or output changes, however often it is repeated. -/
def Obligations.TriggerOnEmptyBufferChangesNothing : Prop :=
  ∀ s : State, s.constructed = true → s.phase = .idle → s.raw = [] → exec .trigger s = .next s

/-- R163 (its first half; that the rest is a chain of steps is the model's choice, R164, log 1), TRIGGER on a non-empty
buffer performs FA.INIT; while PHASE is not IDLE, or before CONSTRUCT, it is not admitted. -/
def Obligations.TriggerStartsTheAttempt : Prop :=
  ∀ s : State,
    (s.constructed = true → s.phase = .idle → 1 ≤ s.rawLen →
      exec .trigger s = .next { s with frameOff := some 0, ct := some [], phase := .faChkstart }) ∧
    (s.constructed = true → s.phase ≠ .idle → exec .trigger s = .refused .busy) ∧
    (s.constructed = false → exec .trigger s = .refused .notConstructed)

/-- R62, R89: the PUSH lines of PUSHN, however many, put their bytes into RAW in order, and no other state changes but
the lines being taken off. That the host's lines stand in State, and that a step takes one off and runs it, is the
model's choice (log 2, DESIGN CHOICE). -/
def Obligations.PushLinesFillRawInOrder : Prop :=
  ∀ (bs : ByteString) (s : State) (rest : List ByteString), s.constructed = true → s.phase = .idle →
    s.pending = pushN bs ++ rest → (∀ n, bufferLimit s.params = some n → s.rawLen + bs.length ≤ n) →
    Host.Core.run Sys2Proof.core bs.length s = .next { s with raw := Memory.append s.raw bs, pending := rest }

/-! ## Frame Assembler -/

/-- R100, FA.INIT. -/
def Obligations.FaInitStartsAtOffsetZero : Prop :=
  ∀ s : State, exec .faInit s = .next { s with frameOff := some 0, ct := some [], phase := .faChkstart }

/-- FA.CHKSTART: fewer than four bytes left raise Truncated, which is this spec's own bounds check (R101, D6); else both
markers must be 68 (R101). -/
def Obligations.FaChkstartChecksBothMarkers : Prop :=
  ∀ (s : State) (f : Nat), s.frameOff = some f →
    (s.rawLen - f < 4 → exec .faChkstart s = .next (s.raise (.framing .truncated) (.frameOff f))) ∧
    (∀ b0 b3 : Byte, 4 ≤ s.rawLen - f → Memory.read? s.raw f = some b0 → Memory.read? s.raw (f + 3) = some b3 →
      exec .faChkstart s =
        .next (if b0 ≠ 0x68 ∨ b3 ≠ 0x68 then s.raise (.framing .badStartMarker) (.frameOff f)
          else { s with phase := .faChklen }))

/-- R102, FA.CHKLEN. -/
def Obligations.FaChklenComparesLengthBytes : Prop :=
  ∀ (s : State) (f : Nat) (b1 b2 : Byte), s.frameOff = some f →
    Memory.read? s.raw (f + 1) = some b1 → Memory.read? s.raw (f + 2) = some b2 →
    exec .faChklen s =
      .next (if b1 ≠ b2 then s.raise (.framing .lengthMismatch) (.frameOff f) else { s with phase := .faChksize })

/-- FA.CHKSIZE: the document's test L + 3 (R103) and this spec's own bounds test L + 6 (R103, D6, C2), both Truncated. -/
def Obligations.FaChksizeRequiresWholeFrame : Prop :=
  ∀ (s : State) (f : Nat) (len : Byte), s.frameOff = some f → Memory.read? s.raw (f + 1) = some len →
    exec .faChksize s =
      .next (if s.rawLen - f < len.toNat + 3 then s.raise (.framing .truncated) (.frameOff f)
        else if s.rawLen - f < len.toNat + 6 then s.raise (.framing .truncated) (.frameOff f)
        else { s with l := some len, phase := .faChkstop })

/-- R104, FA.CHKSTOP. -/
def Obligations.FaChkstopChecksStopByte : Prop :=
  ∀ (s : State) (f : Nat) (len stop : Byte), s.frameOff = some f → s.l = some len →
    Memory.read? s.raw (f + len.toNat + 5) = some stop →
    exec .faChkstop s =
      .next (if stop ≠ 0x16 then s.raise (.framing .badStopMarker) (.frameOff f)
        else { s with phase := if s.params.checksumVerify = true then .faChksum else .faAppend })

/-- FA.CHKSUM: the sum modulo 256 of the L bytes after the second start marker; and with CHECKSUM_VERIFY = 0 PHASE never
comes to FA_CHKSUM. R105 marks the operation as not in the document and its sum as from general knowledge (D3; log 11).
-/
def Obligations.FaChksumSumsTheFrame : Prop :=
  (∀ (s : State) (f : Nat) (len checksum : Byte) (body : ByteString), s.frameOff = some f → s.l = some len →
    Memory.read s.raw (f + 4) len.toNat = some body → Memory.read? s.raw (f + 4 + len.toNat) = some checksum →
    exec .faChksum s =
      .next (if (body.map BitVec.toNat).sum % 256 ≠ checksum.toNat then s.raise (.framing .badChecksum) (.frameOff f)
        else { s with phase := .faAppend })) ∧
  ∀ s t : State, s.params.checksumVerify = false → s.phase ≠ .faChksum → step s = .next t → t.phase ≠ .faChksum

/-- FA.APPEND: a frame shorter than its control information raises Truncated, this spec's own choice (R106, D7); else
the payload slice goes to the end of CT, which grows by L - N_CI, and every other byte reads as before. -/
def Obligations.FaAppendCopiesThePayload : Prop :=
  ∀ (s : State) (f : Nat) (len : Byte), s.frameOff = some f → s.l = some len →
    (len.toNat < s.params.nCi.val → exec .faAppend s = .next (s.raise (.framing .truncated) (.frameOff f))) ∧
    (∀ (ct : Memory) (slice : ByteString), s.params.nCi.val ≤ len.toNat → s.ct = some ct →
      Memory.read s.raw (f + 4 + s.params.nCi.val) (len.toNat - s.params.nCi.val) = some slice →
      exec .faAppend s = .next { s with ct := some (Memory.append ct slice), phase := .faAdvance } ∧
      (Memory.append ct slice).length = ct.length + (len.toNat - s.params.nCi.val) ∧
      (Memory.wf ct = true → ∀ (sp : Space) (a : Nat),
        ({ s with ct := some (Memory.append ct slice), phase := .faAdvance } : State).readByte? sp a =
          if sp = .ct ∧ ct.length ≤ a ∧ a < ct.length + slice.length then slice[a - ct.length]?
          else s.readByte? sp a))

/-- R107, FA.ADVANCE. -/
def Obligations.FaAdvanceMovesToTheNextFrame : Prop :=
  ∀ (s : State) (f : Nat) (len : Byte), s.frameOff = some f → s.l = some len →
    exec .faAdvance s =
      .next { s with
        frameOff := some (f + 4 + len.toNat + 2)
        phase := if f + 4 + len.toNat + 2 ≥ s.rawLen then .shChkmin else .faChkstart }

/-! ## Secure-Header Parser -/

/-- R120, SH.CHKMIN. -/
def Obligations.ShChkminRequiresTwentyBytes : Prop :=
  ∀ (s : State) (ct : Memory), s.ct = some ct →
    exec .shChkmin s =
      .next (if ct.length < 20 then s.raise (.header .tooShort) (.ctLen ct.length) else { s with phase := .shChktag })

/-- R121, SH.CHKTAG. -/
def Obligations.ShChktagChecksCipherTag : Prop :=
  ∀ (s : State) (ct : Memory) (tag : Byte), s.ct = some ct → Memory.read? ct 0 = some tag →
    exec .shChktag s =
      .next (if tag ≠ 0xDB then s.raise (.header .unsupportedCipher) (.byte tag) else { s with phase := .shChkstl })

/-- R122, SH.CHKSTL. -/
def Obligations.ShChkstlChecksTitleLength : Prop :=
  ∀ (s : State) (ct : Memory) (n : Byte), s.ct = some ct → Memory.read? ct 1 = some n →
    exec .shChkstl s =
      .next (if n ≠ 8 then s.raise (.header .unsupportedTitleLength) (.byte n) else { s with phase := .shLen })

/-- R123, SH.LEN.GEN: after 82 the next two bytes, big-endian, and offset 2; any other byte is the length itself, offset
0, and the two bytes after it are not read. -/
def Obligations.ShLenGenReadsGenericLength : Prop :=
  ∀ (s : State) (ct : Memory) (b : Byte), s.ct = some ct → Memory.read? ct 10 = some b →
    (b ≠ 0x82 →
      exec .shLenGen s =
        .next { s with lenf := some (BitVec.ofNat 16 b.toNat), hdrOff := some 0, phase := .shCons }) ∧
    (∀ hi lo : Byte, b = 0x82 → Memory.read? ct 11 = some hi → Memory.read? ct 12 = some lo →
      exec .shLenGen s =
        .next { s with
          lenf := some (BitVec.ofNat 16 (256 * hi.toNat + lo.toNat)), hdrOff := some 2, phase := .shCons })

/-- R124, SH.LEN.VQ: the sequence 81 F8 20 gives length 248 and offset 1; any other is MalformedLength. -/
def Obligations.ShLenVqAcceptsOnlyTheMarker : Prop :=
  ∀ (s : State) (ct : Memory) (b0 b1 b2 : Byte), s.ct = some ct →
    Memory.read? ct 10 = some b0 → Memory.read? ct 11 = some b1 → Memory.read? ct 12 = some b2 →
    exec .shLenVq s =
      .next (if b0 = 0x81 ∧ b1 = 0xF8 ∧ b2 = 0x20
        then { s with lenf := some 248, hdrOff := some 1, phase := .shCons }
        else s.raise (.header .malformedLength) (.bytes [b0, b1, b2]))

/-- SH.CONS: a length below the correction is inconsistent, this spec's own test (R125, D11); then the equality of CTLEN
- 16 - HDR_OFF with the message length; a ciphertext shorter than its header, which SH.CHKMIN has ruled out, is
inconsistent as well, by the model's reading of the equality as an addition (log 16). -/
def Obligations.ShConsChecksDeclaredLength : Prop :=
  ∀ (s : State) (v : BitVec 16) (h : BitVec 2) (ct : Memory), s.lenf = some v → s.hdrOff = some h → s.ct = some ct →
    (16 + h.toNat ≤ ct.length →
      exec .shCons s =
        .next (if v.toNat < s.params.lenCorrection then s.raise (.header .lengthInconsistent) (.lenf v)
          else if ct.length - 16 - h.toNat ≠ v.toNat - s.params.lenCorrection then
            s.raise (.header .lengthInconsistent) (.lenf v)
          else { s with msgLen := some (BitVec.ofNat 16 (v.toNat - s.params.lenCorrection)), phase := .shChksec })) ∧
    (ct.length < 16 + h.toNat → exec .shCons s = .next (s.raise (.header .lengthInconsistent) (.lenf v)))

/-- SH.CHKSEC: the byte at 11 + HDR_OFF, a position that R126 marks as following from the layout (D8). -/
def Obligations.ShChksecAcceptsTwoValues : Prop :=
  ∀ (s : State) (h : BitVec 2) (ct : Memory) (b : Byte), s.hdrOff = some h → s.ct = some ct →
    Memory.read? ct (11 + h.toNat) = some b →
    exec .shChksec s =
      .next (if b ≠ 0x20 ∧ b ≠ 0x21 then s.raise (.header .unsupportedSecurityByte) (.byte b)
        else { s with secByte := some b, phase := .shLatch })

/-- R127, SH.LATCH: every title and every counter, in wire order. -/
def Obligations.ShLatchCopiesTitleAndCounter : Prop :=
  ∀ (s : State) (h : BitVec 2) (ct : Memory) (title : Vector Byte 8) (ctr : Vector Byte 4),
    s.hdrOff = some h → s.ct = some ct →
    Memory.read ct 2 8 = some title.toList → Memory.read ct (12 + h.toNat) 4 = some ctr.toList →
    exec .shLatch s = .next { s with sysTitle := some title, frameCtr := some ctr, phase := .dxIv }

/-- R129, its second half as this spec reads it (C4): a Generic header with the 82 form has the message length of its
two bytes less the correction; a VendorQuirk header that is accepted has raw length 248, message length 248 less the
correction, offset 1 and security byte 20, and so one ciphertext length. -/
def Obligations.QuirkDisambiguation : Prop :=
  ∀ (p : Params) (ct : ByteString) (h : SecureHeader),
    (parseHeader p ct .generic = .ok h → ct.getD 10 0 = 0x82 →
      h.messageLength.toNat + p.lenCorrection = 256 * (ct.getD 11 0).toNat + (ct.getD 12 0).toNat ∧
      h.headerOffset = 2) ∧
    (parseHeader p ct .vendorQuirk = .ok h →
      (ct.getD 11 0).toNat = 248 ∧ h.messageLength.toNat + p.lenCorrection = (ct.getD 11 0).toNat ∧
      h.headerOffset = 1 ∧ h.securityByte = 0x20 ∧ ct.length = 17 + h.messageLength.toNat)

/-! ## Decryptor interface and handoff -/

/-- R140, DX.IV: the 12 bytes are the title's eight and then the counter's four. -/
def Obligations.DxIvConcatenatesTitleAndCounter : Prop :=
  ∀ (s : State) (title : Vector Byte 8) (ctr : Vector Byte 4) (iv : Vector Byte 12),
    s.sysTitle = some title → s.frameCtr = some ctr → iv.toList = title.toList ++ ctr.toList →
    exec .dxIv s = .next { s with iv := some iv, phase := .dxGcm }

/-- R141, DX.GCM: one call with empty additional data on the MSG_LEN bytes after the header; AuthFail raises, Ok(p) puts
p, which has MSG_LEN bytes, into PT; no other byte of memory changes. -/
def Obligations.DxGcmDecryptsTheRest : Prop :=
  ∀ (s : State) (iv : Vector Byte 12) (h : BitVec 2) (len : BitVec 16) (ct : Memory) (data : ByteString),
    s.iv = some iv → s.hdrOff = some h → s.msgLen = some len → s.ct = some ct →
    Memory.read ct (16 + h.toNat) len.toNat = some data →
    (gcm s.params.gcm s.key iv [] data = .authFail →
      exec .dxGcm s = .next (s.raise (.decrypt .authenticationFailed) .none)) ∧
    (∀ p, gcm s.params.gcm s.key iv [] data = .ok p →
      exec .dxGcm s = .next { s with pt := some (Memory.ofBytes p), phase := .dxChkpt } ∧ p.length = len.toNat ∧
      ∀ (sp : Space) (a : Nat),
        ({ s with pt := some (Memory.ofBytes p), phase := .dxChkpt } : State).readByte? sp a =
          if sp = .pt then p[a]? else s.readByte? sp a)

/-- DX.CHKPT: fewer than six bytes, this spec's own test (R142, D16), or a wrong PT[0] or PT[5] (R142), raise
InvalidPlaintext; else the success action. -/
def Obligations.DxChkptValidatesThePlaintext : Prop :=
  ∀ (s : State) (len : BitVec 16), s.msgLen = some len →
    (len.toNat < 6 → exec .dxChkpt s = .next (s.raise (.decrypt .invalidPlaintext) .none)) ∧
    (∀ (pt : Memory) (b0 b5 : Byte), 6 ≤ len.toNat → s.pt = some pt →
      Memory.read? pt 0 = some b0 → Memory.read? pt 5 = some b5 →
      (b0 ≠ s.params.structTag ∨ b5 ≠ 0x0C →
        exec .dxChkpt s = .next (s.raise (.decrypt .invalidPlaintext) .none)) ∧
      (∀ (title : Vector Byte 8) (ctr : Vector Byte 4) (h : BitVec 2) (sec : Byte),
        b0 = s.params.structTag → b5 = 0x0C → s.sysTitle = some title → s.frameCtr = some ctr → s.hdrOff = some h →
        s.secByte = some sec →
        exec .dxChkpt s = .next (s.succeed ⟨title, ctr, len, h, sec⟩ (Memory.bytes pt))))

/-- R167, HANDOFF: the event with copies of the header, of the plaintext and of PROFILE; OUTCOME Ok; RAW empty;
everything ephemeral without value; PHASE in IDLE; nothing else changes. That RAW is cleared here, before the OBIS stage
has run, is what R167 marks as this spec's decision D26. -/
def Obligations.HandoffEmitsPlaintextReady : Prop :=
  ∀ (s : State) (title : Vector Byte 8) (ctr : Vector Byte 4) (len : BitVec 16) (h : BitVec 2) (sec : Byte)
    (pt : Memory), s.sysTitle = some title → s.frameCtr = some ctr → s.msgLen = some len → s.hdrOff = some h →
    s.secByte = some sec → s.pt = some pt →
    exec .handoff s = .next
      { params := s.params, constructed := s.constructed, key := s.key, profile := s.profile, outcome := .ok,
        phase := .idle, raw := [], frameOff := none, l := none, ct := none, lenf := none, hdrOff := none,
        msgLen := none, secByte := none, sysTitle := none, frameCtr := none, iv := none, pt := none,
        pending := s.pending,
        events := s.events ++ [.plaintextReady ⟨title, ctr, len, h, sec⟩ (pt.map Prod.snd) s.profile] }

/-- An event with another security byte in the header that it carries. -/
def withSecurityByte (v : Byte) : Event → Event
  | .plaintextReady h p profile => .plaintextReady { h with securityByte := v } p profile
  | .aborted e => .aborted e

/-- R143, which the spec derives from R140 to R142 (D29): SEC_BYTE changes nothing in DX.IV, DX.GCM and DX.CHKPT: with
another value in it they answer the same whole state but for SEC_BYTE itself; where DX.CHKPT ends the attempt, the state
is the same but for the security byte inside the header of the event that it emits. -/
def Obligations.SecurityByteChangesNothing : Prop :=
  ∀ (s : State) (u v : Byte), s.secByte = some u →
    (∀ t, exec .dxIv s = .next t → exec .dxIv { s with secByte := some v } = .next { t with secByte := some v }) ∧
    (∀ t, exec .dxGcm s = .next t →
      exec .dxGcm { s with secByte := some v } =
        .next (if t.phase = .dxChkpt then { t with secByte := some v } else t)) ∧
    (∀ t, exec .dxChkpt s = .next t →
      ∃ ev, t.events = s.events ++ [ev] ∧
        exec .dxChkpt { s with secByte := some v } =
          .next { t with events := s.events ++ [withSecurityByte v ev] })

/-- R145 (its contract for the answer): the primitive of every instance, GcmRef among them, answers as many bytes as the
data has. -/
def Obligations.GcmAnswerHasTheLengthOfData : Prop :=
  ∀ (choice : GcmChoice) (key : Vector Byte 16) (iv : Vector Byte 12) (aad data p : ByteString),
    gcm choice key iv aad data = .ok p → p.length = data.length

/-- R146: with a primitive that has the named property, a payload that differs from a produced one, in a bit or in its
length, raises AuthenticationFailed. -/
def Obligations.AuthenticPrimitiveRejectsChangedData : Prop :=
  ∀ (s : State) (produced : Vector Byte 16 → Vector Byte 12 → ByteString → Prop) (iv : Vector Byte 12) (h : BitVec 2)
    (len : BitVec 16) (ct : Memory) (data data' : ByteString),
    GcmAuthentic s.params.gcm produced → produced s.key iv data → data' ≠ data →
    s.iv = some iv → s.hdrOff = some h → s.msgLen = some len → s.ct = some ct →
    Memory.read ct (16 + h.toNat) len.toNat = some data' →
    exec .dxGcm s = .next (s.raise (.decrypt .authenticationFailed) .none)

/-- 95_test_vectors.md sections 2 and 5 (R147): the AES-128 known answer, and X3. -/
def Obligations.GcmRefKnownAnswers : Prop :=
  aesEncrypt [0x00, 0x01, 0x02, 0x03, 0x04, 0x05, 0x06, 0x07, 0x08, 0x09, 0x0A, 0x0B, 0x0C, 0x0D, 0x0E, 0x0F]
      [0x00, 0x11, 0x22, 0x33, 0x44, 0x55, 0x66, 0x77, 0x88, 0x99, 0xAA, 0xBB, 0xCC, 0xDD, 0xEE, 0xFF] =
    [0x69, 0xC4, 0xE0, 0xD8, 0x6A, 0x7B, 0x04, 0x30, 0xD8, 0xCD, 0xB7, 0x80, 0x70, 0xB4, 0xC5, 0x5A] ∧
  gcm .ref #v[0x00, 0x01, 0x02, 0x03, 0x04, 0x05, 0x06, 0x07, 0x08, 0x09, 0x0A, 0x0B, 0x0C, 0x0D, 0x0E, 0x0F]
      #v[0x53, 0x4D, 0x53, 0x67, 0x70, 0x0A, 0x1B, 0x2C, 0x00, 0x00, 0x00, 0x2A] []
      [0xED, 0x91, 0x2C, 0x73, 0x36, 0x83, 0x8C, 0x90] =
    .ok [0x02, 0x01, 0x02, 0x03, 0x04, 0x0C, 0x06, 0x07]

/-! ## Errors and the end of an attempt -/

/-- The abort action (R196), field by field: OUTCOME and the event carry the error, RAW is empty, everything ephemeral
holds no value, PHASE is IDLE, KEY, PROFILE and all else untouched. R196 writes Abort(E.V) alone: the info beside the
error in OUTCOME is the model's choice (log 14, DESIGN CHOICE). -/
def Obligations.AbortActionIsOneAction : Prop :=
  ∀ (s : State) (e : BlockError) (info : ErrorInfo),
    s.raise e info =
      { params := s.params, constructed := s.constructed, key := s.key, profile := s.profile, outcome := .abort e info,
        phase := .idle, raw := [], frameOff := none, l := none, ct := none, lenf := none, hdrOff := none,
        msgLen := none, secByte := none, sysTitle := none, frameCtr := none, iv := none, pt := none,
        pending := s.pending, events := s.events ++ [.aborted e] }

/-- R41: the state after every terminal outcome is the reset state but for OUTCOME (and for what the host still asks and
has been told, which is no state of the block). -/
def Obligations.TerminalStateIsTheResetState : Prop :=
  ∀ s : State, s.constructed = true →
    (∀ e info, { s.raise e info with outcome := .none, events := [], pending := [] } =
      { State.reset with params := s.params, constructed := true, key := s.key, profile := s.profile }) ∧
    (∀ h p, { s.succeed h p with outcome := .none, events := [], pending := [] } =
      { State.reset with params := s.params, constructed := true, key := s.key, profile := s.profile })

/-- R40, most of whose values the spec marks as its own choice (D22): after CONSTRUCT from the machine's reset, the
values of the reset table. -/
def Obligations.ResetTable : Prop :=
  ∀ (k : Vector Byte 16) (profile : Profile), ∃ t, exec (.construct k.toList profile) State.reset = .next t ∧
    t.key = k ∧ t.profile = profile ∧ t.outcome = .none ∧ t.phase = .idle ∧ t.raw = [] ∧ t.rawLen = 0 ∧
    t.frameOff = none ∧ t.l = none ∧ t.ct = none ∧ t.lenf = none ∧ t.hdrOff = none ∧ t.msgLen = none ∧
    t.secByte = none ∧ t.sysTitle = none ∧ t.frameCtr = none ∧ t.iv = none ∧ t.pt = none

/-- The numeric codes, which R180 marks as this spec's choice (D20): class in the high nibble, variant in the low
nibble, 00 for no error; that None and Ok are both that 00 is the model's reading (log 23). -/
def Obligations.ErrorCodesOfTheTaxonomy : Prop :=
  [BlockError.framing .badStartMarker, .framing .lengthMismatch, .framing .truncated, .framing .badStopMarker,
    .framing .badChecksum].map BlockError.code = [0x11, 0x12, 0x13, 0x14, 0x15] ∧
  [BlockError.header .tooShort, .header .unsupportedCipher, .header .unsupportedTitleLength, .header .malformedLength,
    .header .lengthInconsistent, .header .unsupportedSecurityByte].map BlockError.code =
      [0x21, 0x22, 0x23, 0x24, 0x25, 0x26] ∧
  [BlockError.decrypt .authenticationFailed, .decrypt .invalidPlaintext].map BlockError.code = [0x31, 0x32] ∧
  [DownstreamError.unexpectedType, .unexpectedCodeLength, .unsupportedMedium, .unsupportedDataType].map
    DownstreamError.code = [0x41, 0x42, 0x43, 0x44] ∧
  TerminalOutcome.none.code = 0x00 ∧ TerminalOutcome.ok.code = 0x00 ∧
  (∀ e info, (TerminalOutcome.abort e info).code = e.code) ∧
  ∀ e e' : BlockError, e.code = e'.code → e = e'

/-- An operation that reads an ephemeral register or buffer without value is a fault of the model, not a read of zero or
of a stale value: what R21 asks of a model (D25; log 5). For every operation and every register it reads; where it reads
several, the first one missing is named, and a register that is read only after a check has passed is missed only then.
Which one is named is the order in which the rule's pseudocode needs them, the model's choice where it needs several at
once (log 5). -/
def Obligations.ReadingNoValueIsAFault : Prop :=
  ∀ s : State,
    (s.frameOff = none →
      exec .faChkstart s = .fault (.noValue .frameOff) ∧ exec .faChklen s = .fault (.noValue .frameOff) ∧
      exec .faChksize s = .fault (.noValue .frameOff) ∧ exec .faChkstop s = .fault (.noValue .frameOff) ∧
      exec .faChksum s = .fault (.noValue .frameOff) ∧ exec .faAppend s = .fault (.noValue .frameOff) ∧
      exec .faAdvance s = .fault (.noValue .frameOff)) ∧
    (∀ f, s.frameOff = some f → s.l = none →
      exec .faChkstop s = .fault (.noValue .l) ∧ exec .faChksum s = .fault (.noValue .l) ∧
      exec .faAppend s = .fault (.noValue .l) ∧ exec .faAdvance s = .fault (.noValue .l)) ∧
    (∀ f len, s.frameOff = some f → s.l = some len → s.params.nCi.val ≤ len.toNat → s.ct = none →
      exec .faAppend s = .fault (.noValue .ct)) ∧
    (s.ct = none →
      exec .shChkmin s = .fault (.noValue .ct) ∧ exec .shChktag s = .fault (.noValue .ct) ∧
      exec .shChkstl s = .fault (.noValue .ct) ∧ exec .shLenGen s = .fault (.noValue .ct) ∧
      exec .shLenVq s = .fault (.noValue .ct)) ∧
    (s.lenf = none → exec .shCons s = .fault (.noValue .lenf)) ∧
    (∀ v, s.lenf = some v → s.hdrOff = none → exec .shCons s = .fault (.noValue .hdrOff)) ∧
    (∀ v h, s.lenf = some v → s.hdrOff = some h → s.ct = none → exec .shCons s = .fault (.noValue .ct)) ∧
    (s.hdrOff = none →
      exec .shChksec s = .fault (.noValue .hdrOff) ∧ exec .shLatch s = .fault (.noValue .hdrOff)) ∧
    (∀ h, s.hdrOff = some h → s.ct = none →
      exec .shChksec s = .fault (.noValue .ct) ∧ exec .shLatch s = .fault (.noValue .ct)) ∧
    (s.sysTitle = none →
      exec .dxIv s = .fault (.noValue .sysTitle) ∧ exec .handoff s = .fault (.noValue .sysTitle)) ∧
    (∀ title, s.sysTitle = some title → s.frameCtr = none →
      exec .dxIv s = .fault (.noValue .frameCtr) ∧ exec .handoff s = .fault (.noValue .frameCtr)) ∧
    (s.iv = none → exec .dxGcm s = .fault (.noValue .iv)) ∧
    (∀ iv, s.iv = some iv → s.hdrOff = none → exec .dxGcm s = .fault (.noValue .hdrOff)) ∧
    (∀ iv h, s.iv = some iv → s.hdrOff = some h → s.msgLen = none → exec .dxGcm s = .fault (.noValue .msgLen)) ∧
    (∀ iv h len, s.iv = some iv → s.hdrOff = some h → s.msgLen = some len → s.ct = none →
      exec .dxGcm s = .fault (.noValue .ct)) ∧
    (s.msgLen = none → exec .dxChkpt s = .fault (.noValue .msgLen)) ∧
    (∀ len, s.msgLen = some len → 6 ≤ len.toNat → s.pt = none → exec .dxChkpt s = .fault (.noValue .pt)) ∧
    (∀ len pt, s.msgLen = some len → 6 ≤ len.toNat → s.pt = some pt →
      Memory.read? pt 0 = some s.params.structTag → Memory.read? pt 5 = some 0x0C →
      exec .dxChkpt s = exec .handoff s) ∧
    (∀ title ctr, s.sysTitle = some title → s.frameCtr = some ctr → s.msgLen = none →
      exec .handoff s = .fault (.noValue .msgLen)) ∧
    (∀ title ctr len, s.sysTitle = some title → s.frameCtr = some ctr → s.msgLen = some len → s.hdrOff = none →
      exec .handoff s = .fault (.noValue .hdrOff)) ∧
    (∀ title ctr len h, s.sysTitle = some title → s.frameCtr = some ctr → s.msgLen = some len → s.hdrOff = some h →
      s.secByte = none → exec .handoff s = .fault (.noValue .secByte)) ∧
    (∀ title ctr len h sec, s.sysTitle = some title → s.frameCtr = some ctr → s.msgLen = some len →
      s.hdrOff = some h → s.secByte = some sec → s.pt = none → exec .handoff s = .fault (.noValue .pt))

/-- R18, R51, R52 (MemAppend): the canonical form of a buffer is kept by an append, the old bytes read as before, and
the appended ones stand after them in order. -/
def Obligations.AppendKeepsTheCanonicalForm : Prop :=
  ∀ (m : Memory) (bs : ByteString), Memory.wf m = true →
    Memory.wf (Memory.append m bs) = true ∧
    ∀ a, Memory.read? (Memory.append m bs) a =
      if a < m.length then Memory.read? m a else bs[a - m.length]?

/-! ## Invariants and whole-machine rules -/

/-- The invariant holds at reset. -/
def Obligations.ResetHasTheInvariant : Prop := State.reset.Inv

/-- R21, R28, R32, R37, R41, R53, R66, R172: every step keeps the invariant: the buffers canonical, RAWLEN within its
capacity, the size relations of every PHASE, which registers hold a value at it, and OUTCOME in agreement with the last
event. -/
def Obligations.StepKeepsTheInvariant : Prop :=
  ∀ s t : State, s.Inv → step s = .next t → t.Inv

/-- R21, R56: from a state with the invariant no step reads past a buffer's end or reads a register that holds no value;
and during an attempt a step always answers a next state. -/
def Obligations.InvariantStatesNeverFault : Prop :=
  ∀ s : State, s.Inv → isSafe (step s) ∧ (s.phase ≠ .idle → ∃ t, step s = .next t)

/-- R163, R169: a TRIGGER on a non-empty buffer, run operation by operation, ends in the state that the one function
Decode gives: its header and plaintext handed out, or its error raised. -/
def Obligations.AttemptRunsTheDecodeFunction : Prop :=
  ∀ s : State, s.Inv → s.constructed = true → s.phase = .idle → 1 ≤ s.rawLen →
    ∃ t k, exec .trigger s = .next t ∧ Host.Core.run Sys2Proof.core k t = .next (attemptResult s)

/-- R109, R164, R172: every attempt ends, within a bound that RAWLEN gives, in IDLE with RAW empty, exactly one event
emitted and OUTCOME matching it. -/
def Obligations.EveryAttemptEnds : Prop :=
  ∀ s t : State, s.Inv → s.constructed = true → s.phase = .idle → 1 ≤ s.rawLen → exec .trigger s = .next t →
    ∃ k u ev, k ≤ 7 * (s.rawLen / 6) + 10 ∧ Host.Core.run Sys2Proof.core k t = .next u ∧
      u.phase = .idle ∧ u.raw = [] ∧ u.events = s.events ++ [ev] ∧
      ((∃ h p, ev = .plaintextReady h p s.profile ∧ u.outcome = .ok) ∨
        ∃ e info, ev = .aborted e ∧ u.outcome = .abort e info)

/-- The loop of Assemble ends by itself (R109): any number of rounds that exceeds a sixth of the bytes left gives the
same answer. That is one round more than the floor of a sixth which R109 prints as the bound: R109 counts the rounds that
go on, and misses a last round that fails on fewer than six bytes. -/
def Obligations.AssembleLoopEndsByItself : Prop :=
  ∀ (p : Params) (raw ct : ByteString) (f m n : Nat), f ≤ raw.length →
    raw.length - f < 6 * m → raw.length - f < 6 * n →
    assembleFrom p raw m f ct = assembleFrom p raw n f ct

/-- R111, the framing round trip: any number of frames, at least one, give back the concatenation of their payloads,
with the checksum verified or not. -/
def Obligations.FramingRoundTrip : Prop :=
  ∀ (p : Params) (frames : List (ByteString × ByteString)), frames ≠ [] →
    (∀ fr ∈ frames, fr.1.length = p.nCi.val ∧ fr.1.length + fr.2.length ≤ 255) →
    assemble p (frames.map fun fr => frameBytes fr.1 fr.2).flatten = .ok (frames.map Prod.snd).flatten

/-- R218, R22, R23: once constructed, no operation and no step changes KEY or PROFILE; nor the parameters, which R213
marks as the spec's decisions (D3, D5, D9, D14, D15, D18); that they stand in State is the model's choice (log 4). -/
def Obligations.ConfigurationNeverChanges : Prop :=
  ∀ s t : State, s.constructed = true → (step s = .next t ∨ ∃ i, exec i s = .next t) →
    t.key = s.key ∧ t.profile = s.profile ∧ t.params = s.params ∧ t.constructed = true

/-- An answer with another KEY in its next state. -/
def withKeyIn (k : Vector Byte 16) : StepResult → StepResult
  | .next t => .next { t with key := k }
  | .fault f => .fault f
  | .refused r => .refused r

/-- R150, R202: KEY reaches the primitive and nothing else: with another KEY for which the one call that DX.GCM makes,
with the IV in `s.iv` and the MSG_LEN bytes of CT at 16 + HDR_OFF, is answered the same, every step answers the same but
for KEY itself: no event, no OUTCOME and no register shows it. -/
def Obligations.KeyReachesOnlyThePrimitive : Prop :=
  ∀ (s : State) (k : Vector Byte 16), s.constructed = true →
    (s.phase = .dxGcm → ∀ (iv : Vector Byte 12) (h : BitVec 2) (len : BitVec 16) (ct : Memory) (data : ByteString),
      s.iv = some iv → s.hdrOff = some h → s.msgLen = some len → s.ct = some ct →
      Memory.read ct (16 + h.toNat) len.toNat = some data →
      gcm s.params.gcm k iv [] data = gcm s.params.gcm s.key iv [] data) →
    step { s with key := k } = withKeyIn k (step s)

/-- R24, R170: a step emits at most one event, and only when an attempt ends: then PHASE comes to IDLE and OUTCOME
matches the event; every other step of a constructed block leaves OUTCOME as it is. -/
def Obligations.EventsOnlyAtTheEndOfAnAttempt : Prop :=
  ∀ s t : State, s.constructed = true → step s = .next t →
    (t.events = s.events ∧ t.outcome = s.outcome) ∨
    (s.phase ≠ .idle ∧ t.phase = .idle ∧
      ((∃ h p, t.events = s.events ++ [.plaintextReady h p s.profile] ∧ t.outcome = .ok) ∨
        ∃ e info, t.events = s.events ++ [.aborted e] ∧ t.outcome = .abort e info))

/-- R61: during an attempt the host's transactions are not admitted, and RAW stays as it is until the attempt ends. That
the host's next lines wait in State meanwhile is the model's choice (log 2, DESIGN CHOICE). -/
def Obligations.HostIsExcludedDuringAnAttempt : Prop :=
  ∀ s : State, s.constructed = true → s.phase ≠ .idle →
    (∀ b, exec (.push b) s = .refused .busy) ∧ exec .trigger s = .refused .busy ∧
    (∀ key profile t, exec (.construct key profile) s ≠ .next t) ∧
    ∀ t, step s = .next t → t.pending = s.pending ∧ (t.raw = s.raw ∨ (t.raw = [] ∧ t.phase = .idle))

/-- R189, R191: under Generic no step raises MalformedLength; under VendorQuirk no step from a state with the invariant
raises UnsupportedSecurityByte. -/
def Obligations.ErrorsAProfileNeverRaises : Prop :=
  ∀ s t : State, s.Inv → step s = .next t →
    (s.profile = .generic → t.events ≠ s.events ++ [.aborted (.header .malformedLength)]) ∧
    (s.profile = .vendorQuirk → t.events ≠ s.events ++ [.aborted (.header .unsupportedSecurityByte)])
end

