-- ==== Sys2Proof/Laws/Memory.lean ====
section
/-! SUPPORT. The laws of buffers: the canonical form and that every operation keeps it, and what a read answers, in terms
of the byte string that the buffer holds. -/

namespace Sys2Proof.Machine

/-! ## The canonical form -/

@[simp] theorem Memory.cellsFrom_length (a : Nat) (bs : ByteString) : (Memory.cellsFrom a bs).length = bs.length := by
  induction bs generalizing a with
  | nil => rfl
  | cons b bs ih => simp [Memory.cellsFrom, ih]

@[simp] theorem Memory.cellsFrom_bytes (a : Nat) (bs : ByteString) :
    (Memory.cellsFrom a bs).map Prod.snd = bs := by
  induction bs generalizing a with
  | nil => rfl
  | cons b bs ih => simp [Memory.cellsFrom, ih]

@[simp] theorem Memory.cellsFrom_offsets (a : Nat) (bs : ByteString) :
    (Memory.cellsFrom a bs).map Prod.fst = List.range' a bs.length := by
  induction bs generalizing a with
  | nil => rfl
  | cons b bs ih => simp [Memory.cellsFrom, ih, List.range'_succ]

theorem Memory.cellsFrom_append (a : Nat) (bs cs : ByteString) :
    Memory.cellsFrom a (bs ++ cs) = Memory.cellsFrom a bs ++ Memory.cellsFrom (a + bs.length) cs := by
  induction bs generalizing a with
  | nil => rfl
  | cons b bs ih =>
    simp only [List.cons_append, Memory.cellsFrom, ih, List.length_cons]
    rw [show a + 1 + bs.length = a + (bs.length + 1) by omega]

@[simp] theorem Memory.ofBytes_length (bs : ByteString) : (Memory.ofBytes bs).length = bs.length := by
  simp [Memory.ofBytes]

@[simp] theorem Memory.bytes_ofBytes (bs : ByteString) : Memory.bytes (Memory.ofBytes bs) = bs := by
  simp [Memory.bytes, Memory.ofBytes]

@[simp] theorem Memory.ofBytes_nil : Memory.ofBytes [] = [] := rfl

@[simp] theorem Memory.bytes_length (m : Memory) : (Memory.bytes m).length = m.length := by simp [Memory.bytes]

/-- A canonical buffer is the byte string it holds: equal buffers are equal data. -/
theorem Memory.eq_cellsFrom (m : Memory) (a : Nat) (h : m.map Prod.fst = List.range' a m.length) :
    m = Memory.cellsFrom a (m.map Prod.snd) := by
  induction m generalizing a with
  | nil => rfl
  | cons c m ih =>
    obtain ⟨o, b⟩ := c
    simp only [List.map_cons, List.length_cons, List.range'_succ, List.cons.injEq] at h
    simp only [List.map_cons, Memory.cellsFrom, ← ih (a + 1) h.2, h.1]

theorem Memory.wf_iff (m : Memory) : Memory.wf m = true ↔ m = Memory.ofBytes (Memory.bytes m) := by
  constructor
  · intro h
    have h : m.map Prod.fst = List.range m.length := by simpa [Memory.wf] using h
    exact Memory.eq_cellsFrom m 0 (by rw [h, List.range_eq_range'])
  · intro h
    rw [h]
    simp [Memory.wf, Memory.ofBytes, List.range_eq_range']

@[simp] theorem Memory.wf_ofBytes (bs : ByteString) : Memory.wf (Memory.ofBytes bs) = true := by
  rw [Memory.wf_iff, Memory.bytes_ofBytes]

@[simp] theorem Memory.wf_clear : Memory.wf Memory.clear = true := rfl

@[simp] theorem Memory.wf_nil : Memory.wf [] = true := rfl

/-- A canonical buffer has the form `ofBytes`. -/
theorem Memory.exists_ofBytes {m : Memory} (h : Memory.wf m = true) : ∃ bs, m = Memory.ofBytes bs :=
  ⟨_, (Memory.wf_iff m).1 h⟩

/-! ## Appending -/

@[simp] theorem Memory.append_length (m : Memory) (bs : ByteString) :
    (Memory.append m bs).length = m.length + bs.length := by simp [Memory.append]

@[simp] theorem Memory.append_bytes (m : Memory) (bs : ByteString) :
    Memory.bytes (Memory.append m bs) = Memory.bytes m ++ bs := by simp [Memory.append, Memory.bytes]

theorem Memory.append_ofBytes (bs cs : ByteString) :
    Memory.append (Memory.ofBytes bs) cs = Memory.ofBytes (bs ++ cs) := by
  simp [Memory.append, Memory.ofBytes, Memory.cellsFrom_append]

/-- Appending keeps the canonical form. -/
theorem Memory.wf_append {m : Memory} (h : Memory.wf m = true) (bs : ByteString) :
    Memory.wf (Memory.append m bs) = true := by
  obtain ⟨ms, rfl⟩ := Memory.exists_ofBytes h
  rw [Memory.append_ofBytes, Memory.wf_ofBytes]

/-! ## Reading -/

theorem Memory.lookup_cellsFrom (a i : Nat) (bs : ByteString) :
    (Memory.cellsFrom a bs).lookup (a + i) = bs[i]? := by
  induction bs generalizing a i with
  | nil => simp [Memory.cellsFrom]
  | cons b bs ih =>
    cases i with
    | zero => simp [Memory.cellsFrom]
    | succ i =>
      have hne : (a + (i + 1) == a) = false := by simp
      have := ih (a + 1) i
      simp only [Memory.cellsFrom, List.lookup_cons, hne, List.getElem?_cons_succ]
      rw [← this]
      congr 1
      omega

@[simp] theorem Memory.read?_ofBytes (bs : ByteString) (a : Nat) : Memory.read? (Memory.ofBytes bs) a = bs[a]? := by
  have := Memory.lookup_cellsFrom 0 a bs
  simpa [Memory.read?, Memory.ofBytes] using this

/-- A read of one byte, in terms of the bytes held. -/
theorem Memory.read?_eq {m : Memory} (h : Memory.wf m = true) (a : Nat) :
    Memory.read? m a = (Memory.bytes m)[a]? := by
  obtain ⟨ms, rfl⟩ := Memory.exists_ofBytes h
  simp

@[simp] theorem Memory.read?_nil (a : Nat) : Memory.read? [] a = none := rfl

/-- Reading after appending: the appended bytes stand after the old ones, which read as before. -/
theorem Memory.read?_append {m : Memory} (h : Memory.wf m = true) (bs : ByteString) (a : Nat) :
    Memory.read? (Memory.append m bs) a =
      if a < m.length then Memory.read? m a else bs[a - m.length]? := by
  obtain ⟨ms, rfl⟩ := Memory.exists_ofBytes h
  simp only [Memory.append_ofBytes, Memory.read?_ofBytes, Memory.ofBytes_length, List.getElem?_append]

theorem Memory.readRun_ofBytes (bs : ByteString) (a n : Nat) (h : a + n ≤ bs.length) :
    Memory.readRun (Memory.ofBytes bs) a n = some ((bs.drop a).take n) := by
  induction n generalizing a with
  | zero => simp [Memory.readRun]
  | succ n ih =>
    have ha : a < bs.length := by omega
    rw [Memory.readRun, ih (a + 1) (by omega), Memory.read?_ofBytes, List.getElem?_eq_getElem ha]
    simp only [Option.some.injEq]
    rw [List.drop_eq_getElem_cons ha, List.take_succ_cons]

/-- A read of `n` bytes: those bytes where they all exist, nothing else. -/
theorem Memory.read_ofBytes (bs : ByteString) (a n : Nat) :
    Memory.read (Memory.ofBytes bs) a n = if a + n ≤ bs.length then some ((bs.drop a).take n) else none := by
  by_cases h : a + n ≤ bs.length
  · simp [Memory.read, h, Memory.readRun_ofBytes]
  · simp [Memory.read, h]

theorem Memory.readRun_length {m : Memory} {a n : Nat} {bs : ByteString} (h : Memory.readRun m a n = some bs) :
    bs.length = n := by
  induction n generalizing a bs with
  | zero => simp [Memory.readRun] at h; simp [← h]
  | succ n ih =>
    rw [Memory.readRun] at h
    split at h
    · next h2 => simp only [Option.some.injEq] at h; rw [← h, List.length_cons, ih h2]
    · cases h

/-- A read answers as many bytes as were asked for. -/
theorem Memory.read_length {m : Memory} {a n : Nat} {bs : ByteString} (h : Memory.read m a n = some bs) :
    bs.length = n := by
  unfold Memory.read at h
  split at h
  · exact Memory.readRun_length h
  · cases h

/-! ## Byte strings as registers -/

theorem toVector?_eq_some {n : Nat} {bs : ByteString} {v : Vector Byte n} :
    toVector? n bs = some v ↔ v.toList = bs := by
  unfold toVector?
  constructor
  · intro h
    split at h
    · simp only [Option.some.injEq] at h; rw [← h]; simp
    · cases h
  · rintro rfl
    rw [dif_pos (by simp)]
    rfl

theorem toVector?_eq_none {n : Nat} {bs : ByteString} : toVector? n bs = none ↔ bs.length ≠ n := by
  unfold toVector?
  split <;> simp [*]

end Sys2Proof.Machine
end

