-- ==== Sys2Proof/Laws/Operands.lean ====
section
/-! SUPPORT. The operand forms in plain numbers, so that no proof unfolds a named offset. -/

namespace Sys2Proof.Machine

section
variable (s : State) (p : Params) (f : Nat) (len : Byte) (h : BitVec 2)

/-! ## Inside a frame (R71) -/

theorem remaining_eq : remaining s f = s.raw.length - f := rfl
theorem frameSize_eq : frameSize len = len.toNat + 6 := by simp [frameSize, headerIntroLength, footerLength]; omega
theorem stopOffset_eq : stopOffset f len = f + len.toNat + 5 := by
  simp [stopOffset, headerIntroLength, footerLength]; omega
theorem bodyOffset_eq : bodyOffset f = f + 4 := rfl
theorem checksumOffset_eq : checksumOffset f len = f + 4 + len.toNat := rfl
theorem payloadOffset_eq : payloadOffset p f = f + 4 + p.nCi.val := rfl
theorem payloadLength_eq : payloadLength p len = len.toNat - p.nCi.val := rfl

/-! ## Inside the secure header (R77) -/

theorem tagOffset_eq : tagOffset = 0 := rfl
theorem titleLenOffset_eq : titleLenOffset = 1 := rfl
theorem titleOffset_eq : titleOffset = 2 := rfl
theorem lengthFieldOffset_eq : lengthFieldOffset = 10 := rfl
theorem secByteOffset_eq : secByteOffset h = 11 + h.toNat := rfl
theorem frameCtrOffset_eq : frameCtrOffset h = 12 + h.toNat := rfl
theorem cipherOffset_eq : cipherOffset h = 16 + h.toNat := rfl
theorem consistentLength_eq (n : BitVec 16) : consistentLength h n = 16 + h.toNat + n.toNat := rfl

/-- The three bytes of form V2, and no others (R80). -/
theorem isV2Marker_iff (b0 b1 b2 : Byte) : isV2Marker b0 b1 b2 = true ↔ b0 = 0x81 ∧ b1 = 0xF8 ∧ b2 = 0x20 := by
  simp [isV2Marker, vqLenMark, vqMarkFirst, vqMarkSecond, and_assoc]

/-- The correction never wraps where it is subtracted from at most sixteen bits. -/
theorem messageLength_toNat (v : BitVec 16) : (messageLength p v).toNat = v.toNat - p.lenCorrection := by
  rw [messageLength, BitVec.toNat_ofNat]
  have := v.isLt
  omega

/-- The two security-control bytes (R126). -/
theorem secByteAccepted_iff (b : Byte) : secByteAccepted b = true ↔ b = 0x20 ∨ b = 0x21 := by
  simp [secByteAccepted, secBytes]

/-! ## Inside the plaintext (R83), and the capacity (R12) -/

theorem structTagOffset_eq : structTagOffset = 0 := rfl

theorem plaintextAccepted_iff (tag count : Byte) :
    plaintextAccepted p tag count = true ↔ tag = p.structTag ∧ count = 0x0C := by
  rw [plaintextAccepted, Bool.and_eq_true, beq_iff_eq, beq_iff_eq]

/-- A bounded buffer holds at least one byte (R12). -/
theorem bufferLimit_pos {n : Nat} (hn : bufferLimit p = some n) : 1 ≤ n := by
  unfold bufferLimit at hn
  split at hn
  · cases hn
  · cases hn; omega

/-- A buffer is full where its capacity is its length. -/
theorem rawFull_iff : rawFull s = true ↔ bufferLimit s.params = some s.rawLen := by rw [rawFull, beq_iff_eq]

/-- An empty buffer is never full: PUSH always finds room for a first byte (R12, R161). -/
theorem rawFull_of_empty (he : s.raw = []) : rawFull s = false := by
  rw [← Bool.not_eq_true, rawFull_iff]
  intro hf
  have := bufferLimit_pos _ hf
  simp [State.rawLen, he] at this

end

end Sys2Proof.Machine
end

