-- ==== Sys2Proof/Laws/State.lean ====
section
/-! SUPPORT. One lemma per field for every named update of the state, so that no proof unfolds a record update. -/

namespace Sys2Proof.Machine

/-! ## `State.dropEphemeral` -/

section
variable (s : State)

@[simp] theorem State.dropEphemeral_params : (s.dropEphemeral).params = s.params := rfl
@[simp] theorem State.dropEphemeral_constructed : (s.dropEphemeral).constructed = s.constructed := rfl
@[simp] theorem State.dropEphemeral_key : (s.dropEphemeral).key = s.key := rfl
@[simp] theorem State.dropEphemeral_profile : (s.dropEphemeral).profile = s.profile := rfl
@[simp] theorem State.dropEphemeral_outcome : (s.dropEphemeral).outcome = s.outcome := rfl
@[simp] theorem State.dropEphemeral_phase : (s.dropEphemeral).phase = s.phase := rfl
@[simp] theorem State.dropEphemeral_raw : (s.dropEphemeral).raw = s.raw := rfl
@[simp] theorem State.dropEphemeral_frameOff : (s.dropEphemeral).frameOff = none := rfl
@[simp] theorem State.dropEphemeral_l : (s.dropEphemeral).l = none := rfl
@[simp] theorem State.dropEphemeral_ct : (s.dropEphemeral).ct = none := rfl
@[simp] theorem State.dropEphemeral_lenf : (s.dropEphemeral).lenf = none := rfl
@[simp] theorem State.dropEphemeral_hdrOff : (s.dropEphemeral).hdrOff = none := rfl
@[simp] theorem State.dropEphemeral_msgLen : (s.dropEphemeral).msgLen = none := rfl
@[simp] theorem State.dropEphemeral_secByte : (s.dropEphemeral).secByte = none := rfl
@[simp] theorem State.dropEphemeral_sysTitle : (s.dropEphemeral).sysTitle = none := rfl
@[simp] theorem State.dropEphemeral_frameCtr : (s.dropEphemeral).frameCtr = none := rfl
@[simp] theorem State.dropEphemeral_iv : (s.dropEphemeral).iv = none := rfl
@[simp] theorem State.dropEphemeral_pt : (s.dropEphemeral).pt = none := rfl
@[simp] theorem State.dropEphemeral_pending : (s.dropEphemeral).pending = s.pending := rfl
@[simp] theorem State.dropEphemeral_events : (s.dropEphemeral).events = s.events := rfl

end

/-! ## `State.endAttempt` -/

section
variable (s : State) (o : TerminalOutcome) (ev : Event)

@[simp] theorem State.endAttempt_params : (s.endAttempt o ev).params = s.params := rfl
@[simp] theorem State.endAttempt_constructed : (s.endAttempt o ev).constructed = s.constructed := rfl
@[simp] theorem State.endAttempt_key : (s.endAttempt o ev).key = s.key := rfl
@[simp] theorem State.endAttempt_profile : (s.endAttempt o ev).profile = s.profile := rfl
@[simp] theorem State.endAttempt_outcome : (s.endAttempt o ev).outcome = o := rfl
@[simp] theorem State.endAttempt_phase : (s.endAttempt o ev).phase = .idle := rfl
@[simp] theorem State.endAttempt_raw : (s.endAttempt o ev).raw = [] := rfl
@[simp] theorem State.endAttempt_frameOff : (s.endAttempt o ev).frameOff = none := rfl
@[simp] theorem State.endAttempt_l : (s.endAttempt o ev).l = none := rfl
@[simp] theorem State.endAttempt_ct : (s.endAttempt o ev).ct = none := rfl
@[simp] theorem State.endAttempt_lenf : (s.endAttempt o ev).lenf = none := rfl
@[simp] theorem State.endAttempt_hdrOff : (s.endAttempt o ev).hdrOff = none := rfl
@[simp] theorem State.endAttempt_msgLen : (s.endAttempt o ev).msgLen = none := rfl
@[simp] theorem State.endAttempt_secByte : (s.endAttempt o ev).secByte = none := rfl
@[simp] theorem State.endAttempt_sysTitle : (s.endAttempt o ev).sysTitle = none := rfl
@[simp] theorem State.endAttempt_frameCtr : (s.endAttempt o ev).frameCtr = none := rfl
@[simp] theorem State.endAttempt_iv : (s.endAttempt o ev).iv = none := rfl
@[simp] theorem State.endAttempt_pt : (s.endAttempt o ev).pt = none := rfl
@[simp] theorem State.endAttempt_pending : (s.endAttempt o ev).pending = s.pending := rfl
@[simp] theorem State.endAttempt_events : (s.endAttempt o ev).events = s.events ++ [ev] := rfl

end

/-! ## `State.raise` -/

section
variable (s : State) (e : BlockError) (info : ErrorInfo)

@[simp] theorem State.raise_params : (s.raise e info).params = s.params := rfl
@[simp] theorem State.raise_constructed : (s.raise e info).constructed = s.constructed := rfl
@[simp] theorem State.raise_key : (s.raise e info).key = s.key := rfl
@[simp] theorem State.raise_profile : (s.raise e info).profile = s.profile := rfl
@[simp] theorem State.raise_outcome : (s.raise e info).outcome = .abort e info := rfl
@[simp] theorem State.raise_phase : (s.raise e info).phase = .idle := rfl
@[simp] theorem State.raise_raw : (s.raise e info).raw = [] := rfl
@[simp] theorem State.raise_frameOff : (s.raise e info).frameOff = none := rfl
@[simp] theorem State.raise_l : (s.raise e info).l = none := rfl
@[simp] theorem State.raise_ct : (s.raise e info).ct = none := rfl
@[simp] theorem State.raise_lenf : (s.raise e info).lenf = none := rfl
@[simp] theorem State.raise_hdrOff : (s.raise e info).hdrOff = none := rfl
@[simp] theorem State.raise_msgLen : (s.raise e info).msgLen = none := rfl
@[simp] theorem State.raise_secByte : (s.raise e info).secByte = none := rfl
@[simp] theorem State.raise_sysTitle : (s.raise e info).sysTitle = none := rfl
@[simp] theorem State.raise_frameCtr : (s.raise e info).frameCtr = none := rfl
@[simp] theorem State.raise_iv : (s.raise e info).iv = none := rfl
@[simp] theorem State.raise_pt : (s.raise e info).pt = none := rfl
@[simp] theorem State.raise_pending : (s.raise e info).pending = s.pending := rfl
@[simp] theorem State.raise_events : (s.raise e info).events = s.events ++ [.aborted e] := rfl

end

/-! ## `State.succeed` -/

section
variable (s : State) (h : SecureHeader) (p : ByteString)

@[simp] theorem State.succeed_params : (s.succeed h p).params = s.params := rfl
@[simp] theorem State.succeed_constructed : (s.succeed h p).constructed = s.constructed := rfl
@[simp] theorem State.succeed_key : (s.succeed h p).key = s.key := rfl
@[simp] theorem State.succeed_profile : (s.succeed h p).profile = s.profile := rfl
@[simp] theorem State.succeed_outcome : (s.succeed h p).outcome = .ok := rfl
@[simp] theorem State.succeed_phase : (s.succeed h p).phase = .idle := rfl
@[simp] theorem State.succeed_raw : (s.succeed h p).raw = [] := rfl
@[simp] theorem State.succeed_frameOff : (s.succeed h p).frameOff = none := rfl
@[simp] theorem State.succeed_l : (s.succeed h p).l = none := rfl
@[simp] theorem State.succeed_ct : (s.succeed h p).ct = none := rfl
@[simp] theorem State.succeed_lenf : (s.succeed h p).lenf = none := rfl
@[simp] theorem State.succeed_hdrOff : (s.succeed h p).hdrOff = none := rfl
@[simp] theorem State.succeed_msgLen : (s.succeed h p).msgLen = none := rfl
@[simp] theorem State.succeed_secByte : (s.succeed h p).secByte = none := rfl
@[simp] theorem State.succeed_sysTitle : (s.succeed h p).sysTitle = none := rfl
@[simp] theorem State.succeed_frameCtr : (s.succeed h p).frameCtr = none := rfl
@[simp] theorem State.succeed_iv : (s.succeed h p).iv = none := rfl
@[simp] theorem State.succeed_pt : (s.succeed h p).pt = none := rfl
@[simp] theorem State.succeed_pending : (s.succeed h p).pending = s.pending := rfl
@[simp] theorem State.succeed_events : (s.succeed h p).events = s.events ++ [.plaintextReady h p s.profile] := rfl

end

/-! ## `State.initAttempt` -/

section
variable (s : State)

@[simp] theorem State.initAttempt_params : (s.initAttempt).params = s.params := rfl
@[simp] theorem State.initAttempt_constructed : (s.initAttempt).constructed = s.constructed := rfl
@[simp] theorem State.initAttempt_key : (s.initAttempt).key = s.key := rfl
@[simp] theorem State.initAttempt_profile : (s.initAttempt).profile = s.profile := rfl
@[simp] theorem State.initAttempt_outcome : (s.initAttempt).outcome = s.outcome := rfl
@[simp] theorem State.initAttempt_phase : (s.initAttempt).phase = .faChkstart := rfl
@[simp] theorem State.initAttempt_raw : (s.initAttempt).raw = s.raw := rfl
@[simp] theorem State.initAttempt_frameOff : (s.initAttempt).frameOff = some 0 := rfl
@[simp] theorem State.initAttempt_l : (s.initAttempt).l = s.l := rfl
@[simp] theorem State.initAttempt_ct : (s.initAttempt).ct = some [] := rfl
@[simp] theorem State.initAttempt_lenf : (s.initAttempt).lenf = s.lenf := rfl
@[simp] theorem State.initAttempt_hdrOff : (s.initAttempt).hdrOff = s.hdrOff := rfl
@[simp] theorem State.initAttempt_msgLen : (s.initAttempt).msgLen = s.msgLen := rfl
@[simp] theorem State.initAttempt_secByte : (s.initAttempt).secByte = s.secByte := rfl
@[simp] theorem State.initAttempt_sysTitle : (s.initAttempt).sysTitle = s.sysTitle := rfl
@[simp] theorem State.initAttempt_frameCtr : (s.initAttempt).frameCtr = s.frameCtr := rfl
@[simp] theorem State.initAttempt_iv : (s.initAttempt).iv = s.iv := rfl
@[simp] theorem State.initAttempt_pt : (s.initAttempt).pt = s.pt := rfl
@[simp] theorem State.initAttempt_pending : (s.initAttempt).pending = s.pending := rfl
@[simp] theorem State.initAttempt_events : (s.initAttempt).events = s.events := rfl

end

/-! ## `State.constructWith` -/

section
variable (s : State) (k : Vector Byte 16) (pr : Profile)

@[simp] theorem State.constructWith_params : (s.constructWith k pr).params = s.params := rfl
@[simp] theorem State.constructWith_constructed : (s.constructWith k pr).constructed = true := rfl
@[simp] theorem State.constructWith_key : (s.constructWith k pr).key = k := rfl
@[simp] theorem State.constructWith_profile : (s.constructWith k pr).profile = pr := rfl
@[simp] theorem State.constructWith_outcome : (s.constructWith k pr).outcome = .none := rfl
@[simp] theorem State.constructWith_phase : (s.constructWith k pr).phase = .idle := rfl
@[simp] theorem State.constructWith_raw : (s.constructWith k pr).raw = [] := rfl
@[simp] theorem State.constructWith_frameOff : (s.constructWith k pr).frameOff = none := rfl
@[simp] theorem State.constructWith_l : (s.constructWith k pr).l = none := rfl
@[simp] theorem State.constructWith_ct : (s.constructWith k pr).ct = none := rfl
@[simp] theorem State.constructWith_lenf : (s.constructWith k pr).lenf = none := rfl
@[simp] theorem State.constructWith_hdrOff : (s.constructWith k pr).hdrOff = none := rfl
@[simp] theorem State.constructWith_msgLen : (s.constructWith k pr).msgLen = none := rfl
@[simp] theorem State.constructWith_secByte : (s.constructWith k pr).secByte = none := rfl
@[simp] theorem State.constructWith_sysTitle : (s.constructWith k pr).sysTitle = none := rfl
@[simp] theorem State.constructWith_frameCtr : (s.constructWith k pr).frameCtr = none := rfl
@[simp] theorem State.constructWith_iv : (s.constructWith k pr).iv = none := rfl
@[simp] theorem State.constructWith_pt : (s.constructWith k pr).pt = none := rfl
@[simp] theorem State.constructWith_pending : (s.constructWith k pr).pending = s.pending := rfl
@[simp] theorem State.constructWith_events : (s.constructWith k pr).events = s.events := rfl

end

/-! ## `State.latchLength` -/

section
variable (s : State) (v : LengthField)

@[simp] theorem State.latchLength_params : (s.latchLength v).params = s.params := rfl
@[simp] theorem State.latchLength_constructed : (s.latchLength v).constructed = s.constructed := rfl
@[simp] theorem State.latchLength_key : (s.latchLength v).key = s.key := rfl
@[simp] theorem State.latchLength_profile : (s.latchLength v).profile = s.profile := rfl
@[simp] theorem State.latchLength_outcome : (s.latchLength v).outcome = s.outcome := rfl
@[simp] theorem State.latchLength_phase : (s.latchLength v).phase = .shCons := rfl
@[simp] theorem State.latchLength_raw : (s.latchLength v).raw = s.raw := rfl
@[simp] theorem State.latchLength_frameOff : (s.latchLength v).frameOff = s.frameOff := rfl
@[simp] theorem State.latchLength_l : (s.latchLength v).l = s.l := rfl
@[simp] theorem State.latchLength_ct : (s.latchLength v).ct = s.ct := rfl
@[simp] theorem State.latchLength_lenf : (s.latchLength v).lenf = some v.lenf := rfl
@[simp] theorem State.latchLength_hdrOff : (s.latchLength v).hdrOff = some v.hdrOff := rfl
@[simp] theorem State.latchLength_msgLen : (s.latchLength v).msgLen = s.msgLen := rfl
@[simp] theorem State.latchLength_secByte : (s.latchLength v).secByte = s.secByte := rfl
@[simp] theorem State.latchLength_sysTitle : (s.latchLength v).sysTitle = s.sysTitle := rfl
@[simp] theorem State.latchLength_frameCtr : (s.latchLength v).frameCtr = s.frameCtr := rfl
@[simp] theorem State.latchLength_iv : (s.latchLength v).iv = s.iv := rfl
@[simp] theorem State.latchLength_pt : (s.latchLength v).pt = s.pt := rfl
@[simp] theorem State.latchLength_pending : (s.latchLength v).pending = s.pending := rfl
@[simp] theorem State.latchLength_events : (s.latchLength v).events = s.events := rfl

end

/-! ## Derived reads -/

@[simp] theorem State.rawLen_eq (s : State) : s.rawLen = s.raw.length := rfl
@[simp] theorem State.buffer_raw (s : State) : s.buffer .raw = some s.raw := rfl
@[simp] theorem State.buffer_ct (s : State) : s.buffer .ct = s.ct := rfl
@[simp] theorem State.buffer_pt (s : State) : s.buffer .pt = s.pt := rfl
theorem State.busy_eq_false (s : State) : s.busy = false ↔ s.phase = .idle := by simp [State.busy]
theorem State.busy_eq_true (s : State) : s.busy = true ↔ s.phase ≠ .idle := by simp [State.busy]

end Sys2Proof.Machine
end

