-- ==== Sys2Proof/Laws/Ops.lean ====
section
/-! SUPPORT. What each shared operation can do, said once: the equations of its cases, and, where it answers a next state,
what it read. -/

namespace Sys2Proof.Machine

section
variable {α : Type} {s t : State}

/-! ## Reading a register -/

@[simp] theorem need_some (r : Register) (x : α) (k : α → StepResult) : need r (some x) k = k x := rfl

@[simp] theorem need_none (r : Register) (k : α → StepResult) : need r none k = .fault (.noValue r) := rfl

/-- Reading a register that is known to hold a value, without rewriting it elsewhere in the goal. -/
theorem need_of_some {r : Register} {v : Option α} {x : α} (h : v = some x) (k : α → StepResult) : need r v k = k x := by
  rw [h, need_some]

theorem need_eq_next {r : Register} {v : Option α} {k : α → StepResult} (h : need r v k = .next t) :
    ∃ x, v = some x ∧ k x = .next t := by
  cases v with
  | none => cases h
  | some x => exact ⟨x, rfl, h⟩

/-! ## Reading a buffer -/

theorem memReadByte_of_some {sp : Space} {m : Memory} {a : Nat} {b : Byte} (h : Memory.read? m a = some b)
    (k : Byte → StepResult) : memReadByte sp m a k = k b := by simp [memReadByte, h]

theorem memReadByte_eq_next {sp : Space} {m : Memory} {a : Nat} {k : Byte → StepResult}
    (h : memReadByte sp m a k = .next t) : ∃ b, Memory.read? m a = some b ∧ k b = .next t := by
  unfold memReadByte at h
  split at h
  · next b hb => exact ⟨b, hb, h⟩
  · cases h

theorem memRead_of_some {sp : Space} {m : Memory} {a n : Nat} {bs : ByteString} (h : Memory.read m a n = some bs)
    (k : ByteString → StepResult) : memRead sp m a n k = k bs := by simp [memRead, h]

theorem memRead_eq_next {sp : Space} {m : Memory} {a n : Nat} {k : ByteString → StepResult}
    (h : memRead sp m a n k = .next t) : ∃ bs, Memory.read m a n = some bs ∧ bs.length = n ∧ k bs = .next t := by
  unfold memRead at h
  split at h
  · next bs hb => exact ⟨bs, hb, Memory.read_length hb, h⟩
  · cases h

theorem memReadVec_of_read {sp : Space} {m : Memory} {a n : Nat} {v : Vector Byte n}
    (h : Memory.read m a n = some v.toList) (k : Vector Byte n → StepResult) : memReadVec sp m a n k = k v := by
  unfold memReadVec
  rw [h, Option.bind_some, toVector?_eq_some.2 rfl]

theorem memReadVec_eq_next {sp : Space} {m : Memory} {a n : Nat} {k : Vector Byte n → StepResult}
    (h : memReadVec sp m a n k = .next t) : ∃ v : Vector Byte n, Memory.read m a n = some v.toList ∧ k v = .next t := by
  unfold memReadVec at h
  split at h
  · next v hv =>
    obtain ⟨bs, hb, hv⟩ := Option.bind_eq_some_iff.1 hv
    exact ⟨v, by rw [hb, toVector?_eq_some.1 hv], h⟩
  · cases h

/-! ## The ends of an attempt -/

@[simp] theorem abort_eq (s : State) (e : BlockError) (info : ErrorInfo) : abort s e info = .next (s.raise e info) := rfl

/-- The success action answers a next state only with all six values at hand, and then that state is `State.succeed`. -/
theorem successAction_eq_next (h : successAction s = .next t) :
    ∃ title ctr len off sec pt, s.sysTitle = some title ∧ s.frameCtr = some ctr ∧ s.msgLen = some len ∧
      s.hdrOff = some off ∧ s.secByte = some sec ∧ s.pt = some pt ∧
      t = s.succeed ⟨title, ctr, len, off, sec⟩ (Memory.bytes pt) := by
  obtain ⟨title, h1, h⟩ := need_eq_next h
  obtain ⟨ctr, h2, h⟩ := need_eq_next h
  obtain ⟨len, h3, h⟩ := need_eq_next h
  obtain ⟨off, h4, h⟩ := need_eq_next h
  obtain ⟨sec, h5, h⟩ := need_eq_next h
  obtain ⟨pt, h6, h⟩ := need_eq_next h
  exact ⟨title, ctr, len, off, sec, pt, h1, h2, h3, h4, h5, h6, by cases h; rfl⟩

/-! ## Selection -/

/-- During an attempt the sequencer runs the operation that PHASE and PROFILE select. -/
theorem selectOperation_of_sequenced {i : Instr} (h : sequencedOperation s.phase s.profile = some i) :
    selectOperation s = .run i s := by simp [selectOperation, h]

/-- In IDLE, and only there, no operation is selected by PHASE. -/
theorem sequencedOperation_eq_none {p : Phase} {pr : Profile} : sequencedOperation p pr = none ↔ p = .idle := by
  cases p <;> cases pr <;> simp [sequencedOperation]

/-- A step that answers a next state ran an operation that was selected, or waited. -/
theorem step_eq_next (h : step s = .next t) :
    (∃ i u, selectOperation s = .run i u ∧ exec i u = .next t) ∨ (selectOperation s = .wait ∧ t = s) := by
  unfold step at h
  split at h
  · next i u hs => exact .inl ⟨i, u, hs, h⟩
  · next hs => cases h; exact .inr ⟨hs, rfl⟩
  · cases h

end

end Sys2Proof.Machine
end

