-- ==== Sys2Proof/Laws/PerInstr.lean ====
section
/-! SUPPORT. What holds of every operation as syntax: its line begins with its mnemonic of R87. -/

namespace Sys2Proof

/-- The mnemonic of an operation as R87 spells it. -/
def Laws.mnemonicText : Instr → ByteString
  | .construct _ _ => ascii ['C', 'O', 'N', 'S', 'T', 'R', 'U', 'C', 'T']
  | .push _ => ascii ['P', 'U', 'S', 'H']
  | i => encode i

/-- The line of an operation begins with its mnemonic. -/
def Laws.EncodeBeginsWithMnemonic.Statement (i : Instr) : Prop :=
  ∃ operands, encode i = Laws.mnemonicText i ++ operands

theorem Laws.EncodeBeginsWithMnemonic.construct (key : ByteString) (profile : Profile) :
    Laws.EncodeBeginsWithMnemonic.Statement (.construct key profile) :=
  ⟨ascii [' ', 'k', 'e', 'y', '='] ++ hexRun key ++ profileTail profile, rfl⟩
theorem Laws.EncodeBeginsWithMnemonic.push (b : Byte) : Laws.EncodeBeginsWithMnemonic.Statement (.push b) :=
  ⟨ascii [' '] ++ hexByte b, rfl⟩
theorem Laws.EncodeBeginsWithMnemonic.trigger : Laws.EncodeBeginsWithMnemonic.Statement .trigger := ⟨[], rfl⟩
theorem Laws.EncodeBeginsWithMnemonic.faInit : Laws.EncodeBeginsWithMnemonic.Statement .faInit := ⟨[], rfl⟩
theorem Laws.EncodeBeginsWithMnemonic.faChkstart : Laws.EncodeBeginsWithMnemonic.Statement .faChkstart := ⟨[], rfl⟩
theorem Laws.EncodeBeginsWithMnemonic.faChklen : Laws.EncodeBeginsWithMnemonic.Statement .faChklen := ⟨[], rfl⟩
theorem Laws.EncodeBeginsWithMnemonic.faChksize : Laws.EncodeBeginsWithMnemonic.Statement .faChksize := ⟨[], rfl⟩
theorem Laws.EncodeBeginsWithMnemonic.faChkstop : Laws.EncodeBeginsWithMnemonic.Statement .faChkstop := ⟨[], rfl⟩
theorem Laws.EncodeBeginsWithMnemonic.faChksum : Laws.EncodeBeginsWithMnemonic.Statement .faChksum := ⟨[], rfl⟩
theorem Laws.EncodeBeginsWithMnemonic.faAppend : Laws.EncodeBeginsWithMnemonic.Statement .faAppend := ⟨[], rfl⟩
theorem Laws.EncodeBeginsWithMnemonic.faAdvance : Laws.EncodeBeginsWithMnemonic.Statement .faAdvance := ⟨[], rfl⟩
theorem Laws.EncodeBeginsWithMnemonic.shChkmin : Laws.EncodeBeginsWithMnemonic.Statement .shChkmin := ⟨[], rfl⟩
theorem Laws.EncodeBeginsWithMnemonic.shChktag : Laws.EncodeBeginsWithMnemonic.Statement .shChktag := ⟨[], rfl⟩
theorem Laws.EncodeBeginsWithMnemonic.shChkstl : Laws.EncodeBeginsWithMnemonic.Statement .shChkstl := ⟨[], rfl⟩
theorem Laws.EncodeBeginsWithMnemonic.shLenGen : Laws.EncodeBeginsWithMnemonic.Statement .shLenGen := ⟨[], rfl⟩
theorem Laws.EncodeBeginsWithMnemonic.shLenVq : Laws.EncodeBeginsWithMnemonic.Statement .shLenVq := ⟨[], rfl⟩
theorem Laws.EncodeBeginsWithMnemonic.shCons : Laws.EncodeBeginsWithMnemonic.Statement .shCons := ⟨[], rfl⟩
theorem Laws.EncodeBeginsWithMnemonic.shChksec : Laws.EncodeBeginsWithMnemonic.Statement .shChksec := ⟨[], rfl⟩
theorem Laws.EncodeBeginsWithMnemonic.shLatch : Laws.EncodeBeginsWithMnemonic.Statement .shLatch := ⟨[], rfl⟩
theorem Laws.EncodeBeginsWithMnemonic.dxIv : Laws.EncodeBeginsWithMnemonic.Statement .dxIv := ⟨[], rfl⟩
theorem Laws.EncodeBeginsWithMnemonic.dxGcm : Laws.EncodeBeginsWithMnemonic.Statement .dxGcm := ⟨[], rfl⟩
theorem Laws.EncodeBeginsWithMnemonic.dxChkpt : Laws.EncodeBeginsWithMnemonic.Statement .dxChkpt := ⟨[], rfl⟩
theorem Laws.EncodeBeginsWithMnemonic.handoff : Laws.EncodeBeginsWithMnemonic.Statement .handoff := ⟨[], rfl⟩

end Sys2Proof
end

