-- ==== Sys2Proof/Tests/Slice0.lean ====
section
/-! SUPPORT. The model's own tests. Expected results are those that 95_test_vectors.md prints (its vector is named in each
test), or are read off the rule named. After them, for every obligation with hypotheses, a `witness_` theorem: concrete
states and operands that meet them, each clause by itself. -/

-- One test after another: each `decide +kernel` elaborated at once would hold a thread of its own.
set_option Elab.async false

namespace Sys2Proof.Tests

open Sys2Proof.Machine

/-! ## Helpers -/

/-- An answer is the next state `t`. -/
def gives (r : StepResult) (t : State) : Bool :=
  match r with
  | .next u => u == t
  | _ => false

/-- An answer is a next state with `p`. -/
def givesWith (r : StepResult) (p : State → Bool) : Bool :=
  match r with
  | .next u => p u
  | _ => false

/-- An answer is the refusal `e`. -/
def refuses (r : StepResult) (e : Refusal) : Bool :=
  match r with
  | .refused f => f == e
  | _ => false

/-- An answer is the fault `e`. -/
def faults (r : StepResult) (e : Fault) : Bool :=
  match r with
  | .fault f => f == e
  | _ => false

/-- A decoder's answer is the operation `i`. -/
def decodesTo (line : ByteString) (i : Instr) : Bool :=
  match decode line with
  | .ok j => j == i
  | .error _ => false

/-- A decoder's answer is the error `e`. -/
def decodeFails (line : ByteString) (e : DecodeError) : Bool :=
  match decode line with
  | .ok _ => false
  | .error f => f == e

/-- The next step runs `i`. -/
def runsNext (s : State) (i : Instr) : Bool :=
  match selectOperation s with
  | .run j _ => j == i
  | _ => false

/-- CT1, the ciphertext of V1. -/
def ct1 : ByteString :=
  [0xDB, 0x08, 0x53, 0x4D, 0x53, 0x67, 0x70, 0x0A, 0x1B, 0x2C, 0x0A, 0x21, 0x00, 0x00, 0x00, 0x2A,
   0xED, 0x91, 0x2C, 0x73, 0x36, 0x83, 0x8C, 0x90]

/-- V1, 35 bytes. -/
def v1 : ByteString := [0x68, 0x1D, 0x1D, 0x68, 0x53, 0xFF, 0x00, 0x01, 0x67] ++ ct1 ++ [0xFF, 0x16]

/-- PT1, the plaintext of V1. -/
def pt1 : ByteString := [0x02, 0x01, 0x02, 0x03, 0x04, 0x0C, 0x06, 0x07]

/-- KEY of the vectors. -/
def key : Vector Byte 16 :=
  #v[0x00, 0x01, 0x02, 0x03, 0x04, 0x05, 0x06, 0x07, 0x08, 0x09, 0x0A, 0x0B, 0x0C, 0x0D, 0x0E, 0x0F]

/-- T, the system title of the vectors. -/
def title : Vector Byte 8 := #v[0x53, 0x4D, 0x53, 0x67, 0x70, 0x0A, 0x1B, 0x2C]

/-- The frame counter of V1. -/
def counter : Vector Byte 4 := #v[0x00, 0x00, 0x00, 0x2A]

/-- The IV of V1 (X1). -/
def iv1 : Vector Byte 12 := #v[0x53, 0x4D, 0x53, 0x67, 0x70, 0x0A, 0x1B, 0x2C, 0x00, 0x00, 0x00, 0x2A]

/-- The constructed block in IDLE with `raw` in RAW. -/
def idleWith (raw : ByteString) : State :=
  { State.reset with constructed := true, key := key, raw := Memory.ofBytes raw }

/-- V1 in RAW, every register at its value for V1, PHASE at `p`: a state in which any operation can run. -/
def sample (p : Phase) : State :=
  { idleWith v1 with
    phase := p, frameOff := some 0, l := some 0x1D, ct := some (Memory.ofBytes ct1), lenf := some 10, hdrOff := some 0,
    msgLen := some 8, secByte := some 0x21, sysTitle := some title, frameCtr := some counter, iv := some iv1,
    pt := some (Memory.ofBytes pt1) }

/-- `sample` with other bytes in RAW. -/
def sampleRaw (p : Phase) (raw : ByteString) : State := { sample p with raw := Memory.ofBytes raw }

/-- `sample` with other bytes in CT. -/
def sampleCt (p : Phase) (ct : ByteString) : State := { sample p with ct := some (Memory.ofBytes ct) }

/-- A ciphertext of 20 bytes whose bytes 10 to 12 are `b0 b1 b2`. -/
def ctLength (b0 b1 b2 : Byte) : ByteString := [0xDB, 0x08] ++ title.toList ++ [b0, b1, b2] ++ List.replicate 7 0

/-! ## Decoding: lines written out from R87 and R88 -/

theorem test_decode_construct :
    decodesTo ([0x43, 0x4F, 0x4E, 0x53, 0x54, 0x52, 0x55, 0x43, 0x54, 0x20, 0x6B, 0x65, 0x79, 0x3D] ++
      [0x30, 0x30, 0x30, 0x31, 0x30, 0x32, 0x30, 0x33, 0x30, 0x34, 0x30, 0x35, 0x30, 0x36, 0x30, 0x37,
       0x30, 0x38, 0x30, 0x39, 0x30, 0x41, 0x30, 0x42, 0x30, 0x43, 0x30, 0x44, 0x30, 0x45, 0x30, 0x46] ++
      [0x20, 0x70, 0x72, 0x6F, 0x66, 0x69, 0x6C, 0x65, 0x3D, 0x47, 0x65, 0x6E, 0x65, 0x72, 0x69, 0x63])
      (.construct key.toList .generic) = true := by decide +kernel

theorem test_decode_construct_vendor :
    decodesTo ([0x43, 0x4F, 0x4E, 0x53, 0x54, 0x52, 0x55, 0x43, 0x54, 0x20, 0x6B, 0x65, 0x79, 0x3D, 0x41, 0x39] ++
      [0x20, 0x70, 0x72, 0x6F, 0x66, 0x69, 0x6C, 0x65, 0x3D, 0x56, 0x65, 0x6E, 0x64, 0x6F, 0x72, 0x51, 0x75, 0x69, 0x72, 0x6B])
      (.construct [0xA9] .vendorQuirk) = true := by decide +kernel

theorem test_decode_push : decodesTo [0x50, 0x55, 0x53, 0x48, 0x20, 0x41, 0x39] (.push 0xA9) = true := by decide +kernel

theorem test_decode_trigger :
    decodesTo [0x54, 0x52, 0x49, 0x47, 0x47, 0x45, 0x52] .trigger = true := by decide +kernel

theorem test_decode_frame_assembler :
    decodesTo [0x46, 0x41, 0x2E, 0x49, 0x4E, 0x49, 0x54] .faInit = true ∧
    decodesTo [0x46, 0x41, 0x2E, 0x43, 0x48, 0x4B, 0x53, 0x54, 0x41, 0x52, 0x54] .faChkstart = true ∧
    decodesTo [0x46, 0x41, 0x2E, 0x43, 0x48, 0x4B, 0x4C, 0x45, 0x4E] .faChklen = true ∧
    decodesTo [0x46, 0x41, 0x2E, 0x43, 0x48, 0x4B, 0x53, 0x49, 0x5A, 0x45] .faChksize = true ∧
    decodesTo [0x46, 0x41, 0x2E, 0x43, 0x48, 0x4B, 0x53, 0x54, 0x4F, 0x50] .faChkstop = true ∧
    decodesTo [0x46, 0x41, 0x2E, 0x43, 0x48, 0x4B, 0x53, 0x55, 0x4D] .faChksum = true ∧
    decodesTo [0x46, 0x41, 0x2E, 0x41, 0x50, 0x50, 0x45, 0x4E, 0x44] .faAppend = true ∧
    decodesTo [0x46, 0x41, 0x2E, 0x41, 0x44, 0x56, 0x41, 0x4E, 0x43, 0x45] .faAdvance = true := by decide +kernel

theorem test_decode_header_parser :
    decodesTo [0x53, 0x48, 0x2E, 0x43, 0x48, 0x4B, 0x4D, 0x49, 0x4E] .shChkmin = true ∧
    decodesTo [0x53, 0x48, 0x2E, 0x43, 0x48, 0x4B, 0x54, 0x41, 0x47] .shChktag = true ∧
    decodesTo [0x53, 0x48, 0x2E, 0x43, 0x48, 0x4B, 0x53, 0x54, 0x4C] .shChkstl = true ∧
    decodesTo [0x53, 0x48, 0x2E, 0x4C, 0x45, 0x4E, 0x2E, 0x47, 0x45, 0x4E] .shLenGen = true ∧
    decodesTo [0x53, 0x48, 0x2E, 0x4C, 0x45, 0x4E, 0x2E, 0x56, 0x51] .shLenVq = true ∧
    decodesTo [0x53, 0x48, 0x2E, 0x43, 0x4F, 0x4E, 0x53] .shCons = true ∧
    decodesTo [0x53, 0x48, 0x2E, 0x43, 0x48, 0x4B, 0x53, 0x45, 0x43] .shChksec = true ∧
    decodesTo [0x53, 0x48, 0x2E, 0x4C, 0x41, 0x54, 0x43, 0x48] .shLatch = true := by decide +kernel

theorem test_decode_decryptor_and_handoff :
    decodesTo [0x44, 0x58, 0x2E, 0x49, 0x56] .dxIv = true ∧
    decodesTo [0x44, 0x58, 0x2E, 0x47, 0x43, 0x4D] .dxGcm = true ∧
    decodesTo [0x44, 0x58, 0x2E, 0x43, 0x48, 0x4B, 0x50, 0x54] .dxChkpt = true ∧
    decodesTo [0x48, 0x41, 0x4E, 0x44, 0x4F, 0x46, 0x46] .handoff = true := by decide +kernel

/-- Lower-case digits, a missing operand and an unknown name are no lines (R88). -/
theorem test_decode_rejects_by_name :
    decodeFails [0x50, 0x55, 0x53, 0x48, 0x20, 0x61, 0x39] .badPushOperand = true ∧
    decodeFails [0x50, 0x55, 0x53, 0x48] .unknownMnemonic = true ∧
    decodeFails [0x43, 0x4F, 0x4E, 0x53, 0x54, 0x52, 0x55, 0x43, 0x54, 0x20, 0x6B, 0x65, 0x79, 0x3D, 0x41]
      .badConstructOperands = true ∧
    decodeFails [] .unknownMnemonic = true := by decide +kernel

/-- PUSHN 68 1D expands to PUSH 68 and PUSH 1D (R89); a PUSHN without the space is rejected. -/
theorem test_pushn_expands :
    (match expandLine [0x50, 0x55, 0x53, 0x48, 0x4E, 0x20, 0x36, 0x38, 0x20, 0x31, 0x44] with
      | .ok ls => ls == [[0x50, 0x55, 0x53, 0x48, 0x20, 0x36, 0x38], [0x50, 0x55, 0x53, 0x48, 0x20, 0x31, 0x44]]
      | .error _ => false) = true ∧
    (match expandLine [0x50, 0x55, 0x53, 0x48, 0x4E, 0x36, 0x38] with
      | .ok _ => false
      | .error e => e == .badPushnOperands) = true := by decide +kernel

/-- FRAME(CI; CT1) is V1, its checksum byte FF (V1). -/
theorem test_frame_v1 : frameBytes [0x53, 0xFF, 0x00, 0x01, 0x67] ct1 = v1 := by decide +kernel

/-! ## Well-formedness -/

/-- A key of 15 bytes makes CONSTRUCT ill formed (T3), one of 17 as well; 16 is right. -/
theorem test_wellFormed_construct_key :
    (Instr.construct (List.replicate 15 0) .generic).wellFormed = false ∧
    (Instr.construct (List.replicate 17 0) .vendorQuirk).wellFormed = false ∧
    (Instr.construct key.toList .generic).wellFormed = true := by decide +kernel

/-! ## Words of the table, and how a step runs them -/

theorem test_table_words_run :
    runsNext (State.reset.withFetchWord 32 0x681D1E68) .faChkstart = true ∧
    runsNext (State.reset.withFetchWord 32 0x681D1D68) .faChklen = true ∧
    runsNext (State.reset.withFetchWord 8 0x16) .faChkstop = true ∧
    runsNext (State.reset.withFetchWord 8 0x42) .faChksum = true ∧
    runsNext (State.reset.withFetchWord 8 0xDB) .shChktag = true ∧
    runsNext (State.reset.withFetchWord 8 0x08) .shChkstl = true ∧
    runsNext (State.reset.withFetchWord 24 0x820018) .shLenGen = true ∧
    runsNext (State.reset.withFetchWord 24 0x81F820) .shLenVq = true ∧
    runsNext (State.reset.withFetchWord 8 0x21) .shChksec = true ∧
    runsNext (State.reset.withFetchWord 48 0x02010203040C) .dxChkpt = true := by decide +kernel

/-- A word placed that way meets its check: the operation completes. -/
theorem test_table_word_step_completes :
    givesWith (step (State.reset.withFetchWord 32 0x681D1D68)) (fun t => t.phase == .faChksize) = true ∧
    givesWith (step (State.reset.withFetchWord 24 0x81F820)) (fun t => t.lenf == some 248) = true ∧
    givesWith (step (State.reset.withFetchWord 48 0x02010203040C)) (fun t => t.outcome == .ok) = true := by decide +kernel

/-! ## Host transactions -/

/-- T3, and R40. -/
theorem test_construct :
    refuses (exec (.construct (List.replicate 15 0) .generic) State.reset) .keyLength = true ∧
    gives (exec (.construct key.toList .generic) State.reset) (idleWith []) = true := by decide +kernel

/-- T4: at RAWBUF_CAP = 4 the fifth PUSH is not admitted. -/
theorem test_push_capacity :
    refuses (exec (.push 0x53)
      { idleWith [0x68, 0x1D, 0x1D, 0x68] with params := { refParams with rawBufCap := .onePlus 3 } }) .bufferFull = true := by
  decide +kernel

/-- T4 by steps: the refused PUSH stays at the head of the host's lines, and the TRIGGER behind it runs once that line has
been taken off (log 24); its attempt then aborts with Truncated. -/
theorem test_refused_line_stays :
    refuses (step { idleWith [0x68, 0x1D, 0x1D, 0x68] with
        params := { refParams with rawBufCap := .onePlus 3 }, pending := [encode (.push 0x53), encode .trigger] })
      .bufferFull = true ∧
    (match Host.Core.run Sys2Proof.core 4 { idleWith [0x68, 0x1D, 0x1D, 0x68] with
        params := { refParams with rawBufCap := .onePlus 3 }, pending := [encode .trigger] } with
      | .next t => t.events == [.aborted (.framing .truncated)] && t.rawLen == 0
      | _ => false) = true := by decide +kernel

/-- R161: the byte goes behind the others. -/
theorem test_push_appends :
    gives (exec (.push 0x1D) (idleWith [0x68])) (idleWith [0x68, 0x1D]) = true := by decide +kernel

/-- T1: nothing happens on an empty buffer; T2: nor after an abort. -/
theorem test_trigger_empty :
    gives (exec .trigger (idleWith [])) (idleWith []) = true ∧
    gives (exec .trigger { idleWith [] with outcome := .abort (.framing .badStartMarker) (.frameOff 0) })
      { idleWith [] with outcome := .abort (.framing .badStartMarker) (.frameOff 0) } = true := by decide +kernel

/-! ## Frame Assembler -/

/-- E1 and E2. -/
theorem test_faChkstart :
    gives (exec .faChkstart (sampleRaw .faChkstart (v1.set 0 0x69)))
      ((sampleRaw .faChkstart (v1.set 0 0x69)).raise (.framing .badStartMarker) (.frameOff 0)) = true ∧
    gives (exec .faChkstart (sampleRaw .faChkstart (v1.set 3 0x69)))
      ((sampleRaw .faChkstart (v1.set 3 0x69)).raise (.framing .badStartMarker) (.frameOff 0)) = true := by decide +kernel

/-- E9: three bytes; and V1 itself goes on. -/
theorem test_faChkstart_truncated :
    gives (exec .faChkstart (sampleRaw .faChkstart (v1.take 3)))
      ((sampleRaw .faChkstart (v1.take 3)).raise (.framing .truncated) (.frameOff 0)) = true ∧
    gives (exec .faChkstart (sample .faChkstart)) (sample .faChklen) = true := by decide +kernel

/-- E3. -/
theorem test_faChklen :
    gives (exec .faChklen (sampleRaw .faChklen (v1.set 2 0x1E)))
      ((sampleRaw .faChklen (v1.set 2 0x1E)).raise (.framing .lengthMismatch) (.frameOff 0)) = true ∧
    gives (exec .faChklen (sample .faChklen)) (sample .faChksize) = true := by decide +kernel

/-- E5: 34 bytes pass the test L + 3 and fail L + 6; V1 has the 35 bytes it needs. -/
theorem test_faChksize :
    gives (exec .faChksize (sampleRaw .faChksize (v1.take 34)))
      ((sampleRaw .faChksize (v1.take 34)).raise (.framing .truncated) (.frameOff 0)) = true ∧
    gives (exec .faChksize { sample .faChksize with l := none }) (sample .faChkstop) = true := by decide +kernel

/-- E10, and V1 without the checksum. -/
theorem test_faChkstop :
    gives (exec .faChkstop (sampleRaw .faChkstop (v1.set 34 0x17)))
      ((sampleRaw .faChkstop (v1.set 34 0x17)).raise (.framing .badStopMarker) (.frameOff 0)) = true ∧
    gives (exec .faChkstop (sample .faChkstop)) (sample .faAppend) = true := by decide +kernel

/-- A5 and A6. -/
theorem test_faChksum :
    gives (exec .faChksum (sampleRaw .faChksum (v1.set 33 0x00)))
      ((sampleRaw .faChksum (v1.set 33 0x00)).raise (.framing .badChecksum) (.frameOff 0)) = true ∧
    gives (exec .faChksum (sample .faChksum)) (sample .faAppend) = true := by decide +kernel

/-- E14: L = 3 below N_CI = 5; A1: V1's slice is CT1. -/
theorem test_faAppend :
    givesWith (exec .faAppend { sampleRaw .faAppend [0x68, 0x03, 0x03, 0x68, 0x53, 0xFF, 0x00, 0xAA, 0x16] with l := some 3 })
      (fun t => t.outcome == .abort (.framing .truncated) (.frameOff 0)) = true ∧
    gives (exec .faAppend (sampleCt .faAppend [])) (sample .faAdvance) = true := by decide +kernel

/-- V1 ends at 35 = RAWLEN; E11: with one byte more the loop goes on. -/
theorem test_faAdvance :
    gives (exec .faAdvance (sample .faAdvance)) { sample .shChkmin with frameOff := some 35 } = true ∧
    givesWith (exec .faAdvance (sampleRaw .faAdvance (v1 ++ [0x00])))
      (fun t => t.phase == .faChkstart && t.frameOff == some 35) = true := by decide +kernel

/-! ## Secure-Header Parser -/

/-- H1: 19 bytes; H2: 20 bytes pass. -/
theorem test_shChkmin :
    givesWith (exec .shChkmin (sampleCt .shChkmin (ct1.take 19))) (fun t => t.outcome == .abort (.header .tooShort) (.ctLen 19)) =
      true ∧
    gives (exec .shChkmin (sampleCt .shChkmin (ct1.take 20))) (sampleCt .shChktag (ct1.take 20)) = true := by decide +kernel

/-- H3. -/
theorem test_shChktag :
    givesWith (exec .shChktag (sampleCt .shChktag (ct1.set 0 0xDC)))
      (fun t => t.outcome == .abort (.header .unsupportedCipher) (.byte 0xDC)) = true ∧
    gives (exec .shChktag (sample .shChktag)) (sample .shChkstl) = true := by decide +kernel

/-- H4. -/
theorem test_shChkstl :
    givesWith (exec .shChkstl (sampleCt .shChkstl (ct1.set 1 0x09)))
      (fun t => t.outcome == .abort (.header .unsupportedTitleLength) (.byte 0x09)) = true ∧
    gives (exec .shChkstl (sample .shChkstl)) (sample .shLen) = true := by decide +kernel

/-- V1: LENF = 10, HDR_OFF = 0; H13: 82 01 02 gives LENF = 258, HDR_OFF = 2. -/
theorem test_shLenGen :
    gives (exec .shLenGen { sample .shLen with lenf := none, hdrOff := none }) (sample .shCons) = true ∧
    givesWith (exec .shLenGen (sampleCt .shLen (ctLength 0x82 0x01 0x02)))
      (fun t => t.lenf == some 258 && t.hdrOff == some 2 && t.phase == .shCons) = true := by decide +kernel

/-- H11: under Generic 81 is a length of 129, not a marker. -/
theorem test_shLenGen_81 :
    givesWith (exec .shLenGen (sampleCt .shLen (ctLength 0x81 0x20 0x00)))
      (fun t => t.lenf == some 129 && t.hdrOff == some 0) = true := by decide +kernel

/-- H15: 81 F8 20 gives LENF = 248, HDR_OFF = 1; H17: 81 F7 20 is malformed. -/
theorem test_shLenVq :
    givesWith (exec .shLenVq (sampleCt .shLen (ctLength 0x81 0xF8 0x20)))
      (fun t => t.lenf == some 248 && t.hdrOff == some 1 && t.phase == .shCons) = true ∧
    givesWith (exec .shLenVq (sampleCt .shLen (ctLength 0x81 0xF7 0x20)))
      (fun t => t.outcome == .abort (.header .malformedLength) (.bytes [0x81, 0xF7, 0x20])) = true := by decide +kernel

/-- V1: MSG_LEN = 8; H5: LENF = 11 is inconsistent. -/
theorem test_shCons :
    gives (exec .shCons { sample .shCons with msgLen := none }) (sample .shChksec) = true ∧
    givesWith (exec .shCons { sample .shCons with lenf := some 11 })
      (fun t => t.outcome == .abort (.header .lengthInconsistent) (.lenf 11)) = true := by decide +kernel

/-- H6: LENF = 1 below LEN_CORRECTION = 2 does not wrap. -/
theorem test_shCons_no_wrap :
    givesWith (exec .shCons { sample .shCons with lenf := some 1 })
      (fun t => t.outcome == .abort (.header .lengthInconsistent) (.lenf 1)) = true := by decide +kernel

/-- H7 and H8. -/
theorem test_shChksec :
    givesWith (exec .shChksec (sampleCt .shChksec (ct1.set 11 0x30)))
      (fun t => t.outcome == .abort (.header .unsupportedSecurityByte) (.byte 0x30)) = true ∧
    givesWith (exec .shChksec (sampleCt .shChksec (ct1.set 11 0x20)))
      (fun t => t.secByte == some 0x20 && t.phase == .shLatch) = true := by decide +kernel

/-- V1. -/
theorem test_shLatch :
    gives (exec .shLatch { sample .shLatch with sysTitle := none, frameCtr := none }) (sample .dxIv) = true := by
  decide +kernel

/-! ## Decryptor interface and handoff -/

/-- X1, and X2's counter 00 01 02 03 in wire order. -/
theorem test_dxIv :
    gives (exec .dxIv { sample .dxIv with iv := none }) (sample .dxGcm) = true ∧
    givesWith (exec .dxIv { sample .dxIv with frameCtr := some #v[0x00, 0x01, 0x02, 0x03] })
      (fun t => t.iv == some #v[0x53, 0x4D, 0x53, 0x67, 0x70, 0x0A, 0x1B, 0x2C, 0x00, 0x01, 0x02, 0x03]) = true := by
  decide +kernel

/-- X3, and X10. -/
theorem test_dxGcm :
    gives (exec .dxGcm { sample .dxGcm with pt := none }) (sample .dxChkpt) = true ∧
    givesWith (exec .dxGcm { sample .dxGcm with params := { refParams with gcm := .fail } })
      (fun t => t.outcome == .abort (.decrypt .authenticationFailed) .none && t.pt == none) = true := by decide +kernel

/-- X5 and X6: PT[0] = 03, and PT[5] = 0D. -/
theorem test_dxChkpt_rejects :
    givesWith (exec .dxChkpt { sample .dxChkpt with pt := some (Memory.ofBytes (pt1.set 0 0x03)) })
      (fun t => t.outcome == .abort (.decrypt .invalidPlaintext) .none) = true ∧
    givesWith (exec .dxChkpt { sample .dxChkpt with pt := some (Memory.ofBytes (pt1.set 5 0x0D)) })
      (fun t => t.outcome == .abort (.decrypt .invalidPlaintext) .none) = true := by decide +kernel

/-- V1: the header of V1 and PT1 are handed out, RAW is empty, the block in IDLE. -/
theorem test_dxChkpt_succeeds :
    gives (exec .dxChkpt (sample .dxChkpt))
      { idleWith [] with
        outcome := .ok, events := [.plaintextReady ⟨title, counter, 8, 0, 0x21⟩ pt1 .generic] } = true := by decide +kernel

/-- HANDOFF alone does the same. -/
theorem test_handoff :
    gives (exec .handoff (sample .dxChkpt))
      { idleWith [] with
        outcome := .ok, events := [.plaintextReady ⟨title, counter, 8, 0, 0x21⟩ pt1 .generic] } = true := by decide +kernel

/-! ## Functions of the whole attempt -/

/-- A1; E12: V1 twice gives CT1 twice; E19's shape: a frame that is too short. -/
theorem test_assemble :
    (match assemble refParams v1 with | .ok ct => ct == ct1 | .error _ => false) = true ∧
    (match assemble refParams (v1 ++ v1) with | .ok ct => ct == ct1 ++ ct1 | .error _ => false) = true ∧
    (match assemble refParams (v1 ++ [0x00]) with | .ok _ => false | .error e => e == (.truncated, 35)) = true := by
  decide +kernel

/-- V1 under Generic and under VendorQuirk. -/
theorem test_parseHeader :
    (match parseHeader refParams ct1 .generic with
      | .ok h => h == ⟨title, counter, 8, 0, 0x21⟩
      | .error _ => false) = true ∧
    (match parseHeader refParams ct1 .vendorQuirk with
      | .ok _ => false
      | .error e => e == (.malformedLength, .bytes [0x0A, 0x21, 0x00])) = true := by decide +kernel

/-! ## Witnesses: the hypotheses of each obligation can be met -/

theorem exists_next {r : StepResult} (p : State → Bool) (h : givesWith r p = true) : ∃ t, r = .next t ∧ p t = true := by
  unfold givesWith at h
  split at h
  · exact ⟨_, rfl, h⟩
  · cases h

theorem next_of_gives {r : StepResult} {t : State} (h : gives r t = true) : r = .next t := by
  unfold gives at h
  split at h
  · rw [eq_of_beq h]
  · cases h

/-- A block whose capacity is `1 + n`. -/
def capped (raw : ByteString) (n : Nat) : State :=
  { idleWith raw with params := { refParams with rawBufCap := .onePlus n } }

/-- The state TRIGGER leaves on V1: it has the invariant. -/
def started : State := { idleWith v1 with phase := .faChkstart, frameOff := some 0, ct := some [] }

/-- The state at DX.CHKPT on V1: it has the invariant. -/
def atChkpt : State := { sample .dxChkpt with frameOff := some 35 }

/-- A VendorQuirk block at SH.CHKSEC, with a correction of 245 so that 20 bytes are consistent. -/
def vendorAtChksec : State :=
  { idleWith v1 with
    params := { refParams with lenCorrection := 245 }, profile := .vendorQuirk, phase := .shChksec, frameOff := some 35,
    l := some 0x1D, ct := some (Memory.ofBytes (ctLength 0x81 0xF8 0x20)), lenf := some 248, hdrOff := some 1,
    msgLen := some 3 }

theorem witness_DecodedLineIsItsEncoding :
    decode [0x50, 0x55, 0x53, 0x48, 0x20, 0x36, 0x38] = .ok (.push 0x68) ∧
    decode (encode (.construct [0xA9] .vendorQuirk)) = .ok (.construct [0xA9] .vendorQuirk) := ⟨rfl, rfl⟩

/-- Four bytes left, no fewer; and a stop byte. -/
theorem witness_FrameChecksAreMaskTests :
    (sampleRaw .faChkstart [0x68, 0x1D, 0x1D, 0x68]).frameOff = some 0 ∧
    4 ≤ (sampleRaw .faChkstart [0x68, 0x1D, 0x1D, 0x68]).rawLen - 0 ∧
    Memory.read? (sampleRaw .faChkstart [0x68, 0x1D, 0x1D, 0x68]).raw 0 = some 0x68 ∧
    Memory.read? (sampleRaw .faChkstart [0x68, 0x1D, 0x1D, 0x68]).raw 1 = some 0x1D ∧
    Memory.read? (sampleRaw .faChkstart [0x68, 0x1D, 0x1D, 0x68]).raw 2 = some 0x1D ∧
    Memory.read? (sampleRaw .faChkstart [0x68, 0x1D, 0x1D, 0x68]).raw 3 = some 0x68 ∧
    Memory.read? (sample .faChkstop).raw 0 = some 0x68 ∧ Memory.read? (sample .faChkstop).raw 1 = some 0x1D ∧
    Memory.read? (sample .faChkstop).raw 2 = some 0x1D ∧ Memory.read? (sample .faChkstop).raw 3 = some 0x68 ∧
    (sample .faChkstop).l = some 0x1D ∧
    Memory.read? (sample .faChkstop).raw (0 + (0x1D : Byte).toNat + 5) = some 0x16 := by decide +kernel

theorem witness_StepRunsThePhaseOperation :
    (∀ p : Phase, (sample p).phase = p) ∧ (sample .shLen).profile = .generic ∧
    ({ sample .shLen with profile := .vendorQuirk } : State).phase = .shLen := ⟨fun _ => rfl, rfl, rfl⟩

/-- A transaction, an operation that is none, and a line that is none. -/
theorem witness_StepRunsTheDecodedTransaction :
    (idleWith []).phase = .idle ∧
    ({ idleWith [] with pending := [encode .trigger] } : State).pending = [encode .trigger] ∧
    decode (encode .trigger) = .ok .trigger ∧ Instr.isHostTransaction .trigger = true ∧
    decode (encode .handoff) = .ok .handoff ∧ Instr.isHostTransaction .handoff = false ∧
    decode [] = .error .unknownMnemonic := ⟨rfl, rfl, rfl, rfl, rfl, rfl, rfl⟩

theorem witness_IdleBlockWaits : (idleWith v1).phase = .idle ∧ (idleWith v1).pending = [] := ⟨rfl, rfl⟩

/-- IDLE with one byte; steps from IDLE that stay (a wait, a TRIGGER on an empty buffer) and one that starts an attempt on
one byte; and from every other PHASE a step that answers a next state, each profile at SH_LEN. -/
theorem witness_ControlTransfersFollowTheTable :
    (idleWith [0x68]).phase = .idle ∧ (idleWith [0x68]).constructed = true ∧ 1 ≤ (idleWith [0x68]).rawLen ∧
    givesWith (step (idleWith [0x68])) (fun t => t.phase == .idle) = true ∧
    givesWith (step { idleWith [] with pending := [encode .trigger] }) (fun t => t.phase == .idle) = true ∧
    givesWith (step { idleWith [0x68] with pending := [encode .trigger] }) (fun t => t.phase == .faChkstart) = true ∧
    (∀ p ∈ [Phase.faChkstart, .faChklen, .faChksize, .faChkstop, .faChksum, .faAppend, .faAdvance, .shChkmin, .shChktag,
        .shChkstl, .shLen, .shCons, .shChksec, .shLatch, .dxIv, .dxGcm, .dxChkpt],
      givesWith (step (sample p)) (fun _ => true) = true) ∧
    givesWith (step { sample .shLen with profile := .vendorQuirk }) (fun _ => true) = true := by decide +kernel

/-- A key of 16 bytes on no block, keys of 15 and 17, and a second CONSTRUCT. -/
theorem witness_ConstructMakesTheBlock :
    key.toList = key.toList ∧ State.reset.constructed = false ∧ (List.replicate 15 (0 : Byte)).length ≠ 16 ∧
    (List.replicate 17 (0 : Byte)).length ≠ 16 ∧ key.toList.length = 16 ∧ (idleWith []).constructed = true := by
  decide +kernel

/-- One byte below the capacity, at the capacity, without capacity, during an attempt, and on no block. -/
theorem witness_PushStoresOneByte :
    (capped v1 35).constructed = true ∧ (capped v1 35).phase = .idle ∧
    bufferLimit (capped v1 35).params ≠ some (capped v1 35).rawLen ∧ Memory.wf (capped v1 35).raw = true ∧
    bufferLimit (capped v1 34).params = some (capped v1 34).rawLen ∧
    bufferLimit (idleWith v1).params ≠ some (idleWith v1).rawLen ∧
    started.constructed = true ∧ started.phase ≠ .idle ∧ State.reset.constructed = false := by decide +kernel

theorem witness_TriggerOnEmptyBufferChangesNothing :
    (idleWith []).constructed = true ∧ (idleWith []).phase = .idle ∧ (idleWith []).raw = [] := by decide +kernel

/-- One byte, the fewest that start an attempt; during an attempt; on no block. -/
theorem witness_TriggerStartsTheAttempt :
    (idleWith [0x68]).constructed = true ∧ (idleWith [0x68]).phase = .idle ∧ 1 ≤ (idleWith [0x68]).rawLen ∧
    started.constructed = true ∧ started.phase ≠ .idle ∧ State.reset.constructed = false := by decide +kernel

/-- Two bytes fill a buffer of three that holds one. -/
theorem witness_PushLinesFillRawInOrder :
    (capped [0x68] 2).constructed = true ∧ (capped [0x68] 2).phase = .idle ∧
    ({ capped [0x68] 2 with pending := pushN [0x1D, 0x1D] ++ [encode .trigger] } : State).pending =
      pushN [0x1D, 0x1D] ++ [encode .trigger] ∧
    bufferLimit (capped [0x68] 2).params = some 3 ∧ (capped [0x68] 2).rawLen + [0x1D, 0x1D].length ≤ 3 := by decide +kernel

/-- Three bytes left, and four. -/
theorem witness_FaChkstartChecksBothMarkers :
    (sampleRaw .faChkstart (v1.take 3)).frameOff = some 0 ∧ (sampleRaw .faChkstart (v1.take 3)).rawLen - 0 < 4 ∧
    4 ≤ (sampleRaw .faChkstart (v1.take 4)).rawLen - 0 ∧
    Memory.read? (sampleRaw .faChkstart (v1.take 4)).raw 0 = some 0x68 ∧
    Memory.read? (sampleRaw .faChkstart (v1.take 4)).raw (0 + 3) = some 0x68 := by decide +kernel

theorem witness_FaChklenComparesLengthBytes :
    (sample .faChklen).frameOff = some 0 ∧ Memory.read? (sample .faChklen).raw (0 + 1) = some 0x1D ∧
    Memory.read? (sample .faChklen).raw (0 + 2) = some 0x1D := by decide +kernel

/-- 31, 34 and 35 bytes of V1: below L + 3, below L + 6, and enough. -/
theorem witness_FaChksizeRequiresWholeFrame :
    ∀ n ∈ [31, 34, 35], (sampleRaw .faChksize (v1.take n)).frameOff = some 0 ∧
      Memory.read? (sampleRaw .faChksize (v1.take n)).raw (0 + 1) = some 0x1D := by decide +kernel

theorem witness_FaChkstopChecksStopByte :
    (sample .faChkstop).frameOff = some 0 ∧ (sample .faChkstop).l = some 0x1D ∧
    Memory.read? (sample .faChkstop).raw (0 + (0x1D : Byte).toNat + 5) = some 0x16 := by decide +kernel

/-- V1; a frame of L = 0, which has nothing to sum; and a step without the checksum. -/
theorem witness_FaChksumSumsTheFrame :
    (sample .faChksum).frameOff = some 0 ∧ (sample .faChksum).l = some 0x1D ∧
    Memory.read (sample .faChksum).raw (0 + 4) (0x1D : Byte).toNat = some ((v1.drop 4).take 29) ∧
    Memory.read? (sample .faChksum).raw (0 + 4 + (0x1D : Byte).toNat) = some 0xFF ∧
    Memory.read (Memory.ofBytes [0x68, 0x00, 0x00, 0x68, 0x00, 0x16]) (0 + 4) (0x00 : Byte).toNat = some [] ∧
    Memory.read? (Memory.ofBytes [0x68, 0x00, 0x00, 0x68, 0x00, 0x16]) (0 + 4 + (0x00 : Byte).toNat) = some 0x00 ∧
    (sample .faChkstop).params.checksumVerify = false ∧ (sample .faChkstop).phase ≠ .faChksum ∧
    givesWith (step (sample .faChkstop)) (fun _ => true) = true := by decide +kernel

/-- L = 4, one below N_CI; L = 5, an empty slice; and V1. -/
theorem witness_FaAppendCopiesThePayload :
    (sample .faAppend).frameOff = some 0 ∧ (4 : Byte).toNat < (sample .faAppend).params.nCi.val ∧
    (sample .faAppend).params.nCi.val ≤ (5 : Byte).toNat ∧
    Memory.read (sample .faAppend).raw (0 + 4 + 5) ((5 : Byte).toNat - 5) = some [] ∧
    (sample .faAppend).l = some 0x1D ∧ (sample .faAppend).ct = some (Memory.ofBytes ct1) ∧
    Memory.wf (Memory.ofBytes ct1) = true ∧
    Memory.read (sample .faAppend).raw (0 + 4 + 5) ((0x1D : Byte).toNat - 5) = some ct1 := by decide +kernel

theorem witness_FaAdvanceMovesToTheNextFrame :
    (sample .faAdvance).frameOff = some 0 ∧ (sample .faAdvance).l = some 0x1D := by decide +kernel

/-- One hypothesis serves SH.CHKMIN, SH.CHKTAG and SH.CHKSTL: a ciphertext; with its first two bytes. -/
theorem witness_ShChkmin_ShChktag_ShChkstl :
    (sample .shChkmin).ct = some (Memory.ofBytes ct1) ∧ Memory.read? (Memory.ofBytes ct1) 0 = some 0xDB ∧
    Memory.read? (Memory.ofBytes ct1) 1 = some 0x08 := by decide +kernel

/-- A length byte 81, next below the mark 82; and 82 with its two bytes. -/
theorem witness_ShLenGenReadsGenericLength :
    Memory.read? (Memory.ofBytes (ctLength 0x81 0xF8 0x20)) 10 = some 0x81 ∧ (0x81 : Byte) ≠ 0x82 ∧
    (sampleCt .shLen (ctLength 0x82 0x01 0x02)).ct = some (Memory.ofBytes (ctLength 0x82 0x01 0x02)) ∧
    Memory.read? (Memory.ofBytes (ctLength 0x82 0x01 0x02)) 10 = some 0x82 ∧
    Memory.read? (Memory.ofBytes (ctLength 0x82 0x01 0x02)) 11 = some 0x01 ∧
    Memory.read? (Memory.ofBytes (ctLength 0x82 0x01 0x02)) 12 = some 0x02 := by decide +kernel

theorem witness_ShLenVqAcceptsOnlyTheMarker :
    vendorAtChksec.ct = some (Memory.ofBytes (ctLength 0x81 0xF8 0x20)) ∧
    Memory.read? (Memory.ofBytes (ctLength 0x81 0xF8 0x20)) 10 = some 0x81 ∧
    Memory.read? (Memory.ofBytes (ctLength 0x81 0xF8 0x20)) 11 = some 0xF8 ∧
    Memory.read? (Memory.ofBytes (ctLength 0x81 0xF8 0x20)) 12 = some 0x20 := by decide +kernel

/-- V1; a ciphertext of exactly 16 bytes; and one of 15. -/
theorem witness_ShConsChecksDeclaredLength :
    (sample .shCons).lenf = some 10 ∧ (sample .shCons).hdrOff = some 0 ∧ (sample .shCons).ct = some (Memory.ofBytes ct1) ∧
    16 + (0 : BitVec 2).toNat ≤ (Memory.ofBytes (ct1.take 16)).length ∧
    (Memory.ofBytes (ct1.take 15)).length < 16 + (0 : BitVec 2).toNat := by decide +kernel

theorem witness_ShChksecAcceptsTwoValues :
    (sample .shChksec).hdrOff = some 0 ∧ (sample .shChksec).ct = some (Memory.ofBytes ct1) ∧
    Memory.read? (Memory.ofBytes ct1) (11 + (0 : BitVec 2).toNat) = some 0x21 := by decide +kernel

theorem witness_ShLatchCopiesTitleAndCounter :
    (sample .shLatch).hdrOff = some 0 ∧ (sample .shLatch).ct = some (Memory.ofBytes ct1) ∧
    Memory.read (Memory.ofBytes ct1) 2 8 = some title.toList ∧
    Memory.read (Memory.ofBytes ct1) (12 + (0 : BitVec 2).toNat) 4 = some counter.toList := by decide +kernel

/-- H12, the smallest telegram of the 82 form; and a VendorQuirk header of 20 bytes under a correction of 245. -/
theorem witness_QuirkDisambiguation :
    (∃ h, parseHeader refParams ([0xDB, 0x08] ++ title.toList ++ [0x82, 0x00, 0x04, 0x20, 0x00, 0x00, 0x00, 0x2A, 0x00, 0x00])
      .generic = .ok h) ∧
    ([0xDB, 0x08] ++ title.toList ++ [0x82, 0x00, 0x04, 0x20, 0x00, 0x00, 0x00, 0x2A, 0x00, 0x00] : ByteString).getD 10 0 =
      0x82 ∧
    ∃ h, parseHeader { refParams with lenCorrection := 245 } (ctLength 0x81 0xF8 0x20) .vendorQuirk = .ok h :=
  ⟨⟨_, rfl⟩, rfl, ⟨_, rfl⟩⟩

theorem witness_DxIvConcatenatesTitleAndCounter :
    (sample .dxIv).sysTitle = some title ∧ (sample .dxIv).frameCtr = some counter ∧
    iv1.toList = title.toList ++ counter.toList := by decide +kernel

/-- Both answers of the primitive; and the empty payload. -/
theorem witness_DxGcmDecryptsTheRest :
    (sample .dxGcm).iv = some iv1 ∧ (sample .dxGcm).hdrOff = some 0 ∧ (sample .dxGcm).msgLen = some 8 ∧
    (sample .dxGcm).ct = some (Memory.ofBytes ct1) ∧
    Memory.read (Memory.ofBytes ct1) (16 + (0 : BitVec 2).toNat) (8 : BitVec 16).toNat = some (ct1.drop 16) ∧
    gcm .fail key iv1 [] (ct1.drop 16) = .authFail ∧ gcm .ref key iv1 [] (ct1.drop 16) = .ok pt1 ∧
    Memory.read (Memory.ofBytes ct1) (16 + (0 : BitVec 2).toNat) (0 : BitVec 16).toNat = some [] ∧
    gcm .ref key iv1 [] [] = .ok [] := by decide +kernel

/-- Five bytes; six with a wrong tag or a wrong count; and V1. -/
theorem witness_DxChkptValidatesThePlaintext :
    (5 : BitVec 16).toNat < 6 ∧ 6 ≤ (6 : BitVec 16).toNat ∧ (sample .dxChkpt).msgLen = some 8 ∧
    (sample .dxChkpt).pt = some (Memory.ofBytes pt1) ∧
    Memory.read? (Memory.ofBytes (pt1.set 0 0x03)) 0 = some 0x03 ∧ (0x03 : Byte) ≠ (sample .dxChkpt).params.structTag ∧
    Memory.read? (Memory.ofBytes (pt1.set 5 0x0D)) 5 = some 0x0D ∧ (0x0D : Byte) ≠ 0x0C ∧
    Memory.read? (Memory.ofBytes pt1) 0 = some 0x02 ∧ (0x02 : Byte) = (sample .dxChkpt).params.structTag ∧
    Memory.read? (Memory.ofBytes pt1) 5 = some 0x0C ∧ (sample .dxChkpt).sysTitle = some title ∧
    (sample .dxChkpt).frameCtr = some counter ∧ (sample .dxChkpt).hdrOff = some 0 ∧
    (sample .dxChkpt).secByte = some 0x21 := by decide +kernel

theorem witness_HandoffEmitsPlaintextReady :
    (sample .dxChkpt).sysTitle = some title ∧ (sample .dxChkpt).frameCtr = some counter ∧
    (sample .dxChkpt).msgLen = some 8 ∧ (sample .dxChkpt).hdrOff = some 0 ∧ (sample .dxChkpt).secByte = some 0x21 ∧
    (sample .dxChkpt).pt = some (Memory.ofBytes pt1) := by decide +kernel

/-- DX.CHKPT both ways: with the plaintext of V1, and with five bytes. -/
theorem witness_SecurityByteChangesNothing :
    (sample .dxIv).secByte = some 0x21 ∧
    (∃ t, exec .dxIv (sample .dxIv) = .next t) ∧ (∃ t, exec .dxGcm (sample .dxGcm) = .next t) ∧
    (∃ t, exec .dxChkpt (sample .dxChkpt) = .next t ∧ (t.outcome == .ok) = true) ∧
    ∃ t, exec .dxChkpt { sample .dxChkpt with msgLen := some 5 } = .next t ∧
      (t.outcome == .abort (.decrypt .invalidPlaintext) .none) = true :=
  ⟨rfl, ⟨_, rfl⟩, ⟨_, next_of_gives (t := sample .dxChkpt) (by decide +kernel)⟩,
    exists_next (fun t => t.outcome == .ok) (by decide +kernel), exists_next _ (by decide +kernel)⟩

theorem witness_GcmAnswerHasTheLengthOfData : gcm .ref key iv1 [] (ct1.drop 16) = .ok pt1 := by decide +kernel

/-- GcmFail has the named property: a payload that differs in a bit, and one cut to seven bytes. -/
theorem witness_AuthenticPrimitiveRejectsChangedData :
    GcmAuthentic .fail (fun _ _ d => d = ct1.drop 16) ∧
    (ct1.drop 16).set 0 0xEC ≠ ct1.drop 16 ∧ (ct1.drop 16).take 7 ≠ ct1.drop 16 ∧
    Memory.read (Memory.ofBytes ct1) (16 + (0 : BitVec 2).toNat) (7 : BitVec 16).toNat = some ((ct1.drop 16).take 7) ∧
    ({ sampleCt .dxGcm (ct1.set 16 0xEC) with params := { refParams with gcm := .fail } } : State).params.gcm = .fail ∧
    (sampleCt .dxGcm (ct1.set 16 0xEC)).iv = some iv1 ∧ (sampleCt .dxGcm (ct1.set 16 0xEC)).hdrOff = some 0 ∧
    (sampleCt .dxGcm (ct1.set 16 0xEC)).msgLen = some 8 ∧
    Memory.read (Memory.ofBytes (ct1.set 16 0xEC)) (16 + (0 : BitVec 2).toNat) (8 : BitVec 16).toNat =
      some ((ct1.drop 16).set 0 0xEC) := by
  refine ⟨fun _ _ _ _ _ _ => rfl, ?_⟩
  decide +kernel

theorem witness_TerminalStateIsTheResetState : (sample .dxChkpt).constructed = true := rfl

/-- The reset state holds no ephemeral value; and `sample`, in which each register holds one, with one register without
value is a state for each clause: each faults as the clause says. L = N_CI and MSG_LEN = 6 are the boundary values. -/
theorem witness_ReadingNoValueIsAFault :
    faults (exec .faChkstart State.reset) (.noValue .frameOff) = true ∧
    faults (exec .faAdvance { sample .faAdvance with l := none }) (.noValue .l) = true ∧
    faults (exec .faAppend { sample .faAppend with l := some 5, ct := none }) (.noValue .ct) = true ∧
    faults (exec .shLenVq State.reset) (.noValue .ct) = true ∧
    faults (exec .shCons State.reset) (.noValue .lenf) = true ∧
    faults (exec .shCons { sample .shCons with hdrOff := none }) (.noValue .hdrOff) = true ∧
    faults (exec .shCons { sample .shCons with ct := none }) (.noValue .ct) = true ∧
    faults (exec .shChksec { sample .shChksec with hdrOff := none }) (.noValue .hdrOff) = true ∧
    faults (exec .shLatch { sample .shLatch with ct := none }) (.noValue .ct) = true ∧
    faults (exec .dxIv { sample .dxIv with sysTitle := none }) (.noValue .sysTitle) = true ∧
    faults (exec .handoff { sample .dxChkpt with frameCtr := none }) (.noValue .frameCtr) = true ∧
    faults (exec .dxGcm { sample .dxGcm with iv := none }) (.noValue .iv) = true ∧
    faults (exec .dxGcm { sample .dxGcm with hdrOff := none }) (.noValue .hdrOff) = true ∧
    faults (exec .dxGcm { sample .dxGcm with msgLen := none }) (.noValue .msgLen) = true ∧
    faults (exec .dxGcm { sample .dxGcm with ct := none }) (.noValue .ct) = true ∧
    faults (exec .dxChkpt { sample .dxChkpt with msgLen := none }) (.noValue .msgLen) = true ∧
    faults (exec .dxChkpt { sample .dxChkpt with msgLen := some 6, pt := none }) (.noValue .pt) = true ∧
    faults (exec .dxChkpt { sample .dxChkpt with msgLen := some 6, secByte := none }) (.noValue .secByte) = true ∧
    faults (exec .handoff { sample .dxChkpt with msgLen := none }) (.noValue .msgLen) = true ∧
    faults (exec .handoff { sample .dxChkpt with hdrOff := none }) (.noValue .hdrOff) = true ∧
    faults (exec .handoff { sample .dxChkpt with secByte := none }) (.noValue .secByte) = true ∧
    faults (exec .handoff { sample .dxChkpt with pt := none }) (.noValue .pt) = true := by decide +kernel

theorem witness_AppendKeepsTheCanonicalForm :
    Memory.wf (Memory.ofBytes v1) = true ∧ Memory.wf ([] : Memory) = true := by decide +kernel

theorem idleWith_inv (raw : ByteString) (h : Memory.wf (Memory.ofBytes raw) = true) : (idleWith raw).Inv :=
  ⟨h, trivial, (fun h => by cases h), rfl, rfl, rfl, rfl, rfl, rfl, rfl, rfl, rfl, rfl, rfl, rfl⟩

theorem started_inv : started.Inv :=
  ⟨by decide +kernel, trivial, (fun h => by cases h), rfl, 0, [], rfl, rfl, rfl, by decide, by decide +kernel,
    by decide +kernel, rfl, rfl, rfl, rfl, rfl, rfl, rfl, rfl⟩

theorem atChkpt_assembled : atChkpt.assembled minCtLen :=
  ⟨Memory.ofBytes ct1, 0x1D, rfl, rfl, rfl, by decide +kernel, by decide +kernel, by decide +kernel, by decide +kernel⟩

theorem atChkpt_inv : atChkpt.Inv :=
  ⟨by decide +kernel, trivial, (fun h => by cases h), rfl, atChkpt_assembled, ⟨⟨10, 0⟩, rfl, rfl, .inl rfl⟩,
    ⟨⟨10, 0⟩, 8, Memory.ofBytes ct1, rfl, rfl, rfl, rfl, rfl, by decide +kernel⟩, .inr rfl,
    ⟨title, counter, rfl, rfl, by decide +kernel⟩, ⟨Memory.ofBytes pt1, 8, rfl, rfl, by decide +kernel, by decide +kernel⟩⟩

theorem vendorAtChksec_inv : vendorAtChksec.Inv :=
  ⟨by decide +kernel, trivial, (fun h => by cases h), rfl,
    ⟨_, 0x1D, rfl, rfl, rfl, by decide +kernel, by decide +kernel, by decide +kernel, by decide +kernel⟩,
    ⟨⟨248, 1⟩, rfl, rfl, rfl, rfl, by decide +kernel⟩, ⟨⟨248, 1⟩, 3, _, rfl, rfl, rfl, rfl, rfl, by decide +kernel⟩,
    rfl, rfl, rfl, rfl, rfl⟩

/-- Three states with the invariant from which a step answers a next state: at the attempt's start, at its last operation,
and in a VendorQuirk attempt. -/
theorem witness_StepKeepsTheInvariant :
    (started.Inv ∧ ∃ t, step started = .next t) ∧ (atChkpt.Inv ∧ ∃ t, step atChkpt = .next t) ∧
    vendorAtChksec.Inv ∧ ∃ t, step vendorAtChksec = .next t :=
  ⟨⟨started_inv, ⟨_, rfl⟩⟩, ⟨atChkpt_inv, (exists_next (fun _ => true) (by decide +kernel)).imp fun _ h => h.1⟩,
    vendorAtChksec_inv, ⟨_, rfl⟩⟩

theorem witness_InvariantStatesNeverFault : started.Inv ∧ started.phase ≠ .idle := ⟨started_inv, by decide⟩

/-- One byte in RAW. -/
theorem witness_AttemptRunsTheDecodeFunction :
    (idleWith [0x68]).Inv ∧ (idleWith [0x68]).constructed = true ∧ (idleWith [0x68]).phase = .idle ∧
    1 ≤ (idleWith [0x68]).rawLen := ⟨idleWith_inv _ rfl, rfl, rfl, by decide⟩

theorem witness_EveryAttemptEnds :
    (idleWith v1).Inv ∧ (idleWith v1).constructed = true ∧ (idleWith v1).phase = .idle ∧ 1 ≤ (idleWith v1).rawLen ∧
    exec .trigger (idleWith v1) = .next started :=
  ⟨idleWith_inv _ (by decide +kernel), rfl, rfl, by decide, next_of_gives (by decide +kernel)⟩

/-- Six bytes left: two rounds and more. -/
theorem witness_AssembleLoopEndsByItself :
    0 ≤ (v1.take 6).length ∧ (v1.take 6).length - 0 < 6 * 2 ∧ (v1.take 6).length - 0 < 6 * 3 := by decide

/-- One frame with an empty payload and one of 255 bytes after the second start marker. -/
theorem witness_FramingRoundTrip :
    [(List.replicate 5 (0 : Byte), ([] : ByteString)), (List.replicate 5 0, List.replicate 250 0)] ≠ [] ∧
    ∀ fr ∈ [(List.replicate 5 (0 : Byte), ([] : ByteString)), (List.replicate 5 0, List.replicate 250 0)],
      fr.1.length = refParams.nCi.val ∧ fr.1.length + fr.2.length ≤ 255 := by decide +kernel

theorem witness_ConfigurationNeverChanges : started.constructed = true ∧ ∃ t, step started = .next t := ⟨rfl, _, rfl⟩

/-- A payload of two bytes, form G3 with LENF = 4, under GcmRef. -/
def shortPayload : State :=
  { sampleCt .dxGcm ([0xDB, 0x08] ++ title.toList ++ [0x82, 0x00, 0x04, 0x21] ++ counter.toList ++ [0x12, 0x34]) with
    lenf := some 4, hdrOff := some 2, msgLen := some 2 }

/-- A key other than that of `shortPayload`, whose keystream for `iv1` begins with the same two bytes EF 90. -/
def otherKey : Vector Byte 16 :=
  #v[0x00, 0x00, 0x00, 0x00, 0x00, 0x00, 0x00, 0x00, 0x00, 0x00, 0x00, 0x00, 0x00, 0x00, 0x4F, 0x9D]

/-- At DX_GCM under GcmRef two keys that the one call does not tell apart; and a step inside an attempt at another PHASE,
where every key will do. -/
theorem witness_KeyReachesOnlyThePrimitive :
    shortPayload.constructed = true ∧ shortPayload.phase = .dxGcm ∧ otherKey ≠ shortPayload.key ∧
    (∀ (iv : Vector Byte 12) (h : BitVec 2) (len : BitVec 16) (ct : Memory) (data : ByteString),
      shortPayload.iv = some iv → shortPayload.hdrOff = some h → shortPayload.msgLen = some len →
      shortPayload.ct = some ct → Memory.read ct (16 + h.toNat) len.toNat = some data →
      gcm shortPayload.params.gcm otherKey iv [] data = gcm shortPayload.params.gcm shortPayload.key iv [] data) ∧
    givesWith (step shortPayload) (fun t => t.phase == .dxChkpt) = true ∧
    started.constructed = true ∧ started.phase ≠ .dxGcm := by
  refine ⟨rfl, rfl, by decide +kernel, ?_, by decide +kernel, rfl, by decide⟩
  intro iv h len ct data hiv hh hlen hct hdata
  cases hiv
  cases hh
  cases hlen
  cases hct
  have hd : data = [0x12, 0x34] := Option.some.inj (hdata.symm.trans (by decide +kernel))
  rw [hd]
  decide +kernel

/-- A step inside an attempt, and the step that ends one. -/
theorem witness_EventsOnlyAtTheEndOfAnAttempt :
    started.constructed = true ∧ (∃ t, step started = .next t) ∧ atChkpt.constructed = true ∧ ∃ t, step atChkpt = .next t :=
  ⟨rfl, ⟨_, rfl⟩, rfl, (exists_next (fun _ => true) (by decide +kernel)).imp fun _ h => h.1⟩

theorem witness_HostIsExcludedDuringAnAttempt :
    started.constructed = true ∧ started.phase ≠ .idle ∧ ∃ t, step started = .next t := ⟨rfl, by decide, _, rfl⟩

theorem witness_ErrorsAProfileNeverRaises :
    (started.Inv ∧ started.profile = .generic ∧ ∃ t, step started = .next t) ∧
    vendorAtChksec.Inv ∧ vendorAtChksec.profile = .vendorQuirk ∧ ∃ t, step vendorAtChksec = .next t :=
  ⟨⟨started_inv, rfl, _, rfl⟩, vendorAtChksec_inv, rfl, _, rfl⟩

end Sys2Proof.Tests
end

section
/-! The end of an attempt and the reset state (R41): both terminal actions end in the reset table's state, so the fact is
proved once, for the action they share. -/

namespace Sys2Proof.Machine

/-- R41 for the shared end of an attempt: of the state before, only the instance (parameters, KEY, PROFILE), the host's
lines and the events already emitted are left. -/
theorem State.endAttempt_eq_reset (s : State) (o : TerminalOutcome) (ev : Event) :
    s.endAttempt o ev =
      { State.reset with
        params := s.params, constructed := s.constructed, key := s.key, profile := s.profile,
        outcome := o, pending := s.pending, events := s.events ++ [ev] } := rfl

/-- Settles O42: `raise` and `succeed` are both `endAttempt`, with an outcome and an event that the statement blanks. -/
theorem terminalStateIsTheResetState : Obligations.TerminalStateIsTheResetState := by
  intro s hconstructed
  have blanked (o : TerminalOutcome) (ev : Event) :
      { s.endAttempt o ev with outcome := .none, events := [], pending := [] } =
        { State.reset with params := s.params, constructed := true, key := s.key, profile := s.profile } := by
    rw [State.endAttempt_eq_reset, hconstructed]
    rfl
  constructor
  case left =>
    intro e info
    exact blanked (.abort e info) (.aborted e)
  case right =>
    intro h p
    exact blanked .ok (.plaintextReady h p s.profile)

end Sys2Proof.Machine
end

section
/-! The three frame checks (R101, R102, R104) as equations of `exec`, and the match-and-mask tests of R72 on the header
word: the mask and the two bit fields each pick whole bytes of the word, so each test is one about bytes. -/

namespace Sys2Proof.Machine

/-! ## The header word (R72) -/

/-- Two words cut at the same place are equal iff both parts are. -/
theorem bitVec_append_inj {v w : Nat} {x x' : BitVec v} {y y' : BitVec w} :
    x ++ y = x' ++ y' ↔ x = x' ∧ y = y' := by
  constructor
  case mp =>
    intro h
    have hleft := congrArg (BitVec.extractLsb' w v) h
    have hright := congrArg (BitVec.extractLsb' 0 w) h
    simp only [BitVec.extractLsb'_append_eq_left, BitVec.extractLsb'_append_eq_right] at hleft hright
    exact ⟨hleft, hright⟩
  case mpr =>
    rintro ⟨rfl, rfl⟩
    rfl

section
variable (b0 b1 b2 b3 : Byte)

/-- The mask of R72 keeps the outer bytes of the header word and clears the inner two. -/
theorem headerWord_and_mask :
    (b0 ++ b1 ++ b2 ++ b3 : BitVec 32) &&& 0xFF0000FF#32 = b0 ++ 0#8 ++ 0#8 ++ b3 := by
  have hmask : 0xFF0000FF#32 = BitVec.allOnes 8 ++ 0#8 ++ 0#8 ++ BitVec.allOnes 8 := by decide
  have hbytes : (b0 ++ b1 ++ b2 ++ b3) &&& (BitVec.allOnes 8 ++ 0#8 ++ 0#8 ++ BitVec.allOnes 8) =
      b0 ++ 0#8 ++ 0#8 ++ b3 := by
    simp only [BitVec.and_append, BitVec.and_allOnes, BitVec.and_zero]
  rw [hmask]
  exact hbytes

theorem headerWord_masked_eq_iff :
    (b0 ++ b1 ++ b2 ++ b3 : BitVec 32) &&& 0xFF0000FF#32 = 0x68000068#32 ↔ b0 = startMarker ∧ b3 = startMarker := by
  have hmatch : 0x68000068#32 = startMarker ++ 0#8 ++ 0#8 ++ startMarker := by decide
  rw [headerWord_and_mask, hmatch]
  simp only [bitVec_append_inj, and_true]

/-- `W[23:16]`. -/
theorem headerWord_extractLsb_len1 : (b0 ++ b1 ++ b2 ++ b3 : BitVec 32).extractLsb 23 16 = b1 :=
  calc (b0 ++ b1 ++ b2 ++ b3).extractLsb' 16 8
    _ = (b0 ++ b1 ++ b2).extractLsb' 8 8 := BitVec.extractLsb'_append_eq_of_le (by decide)
    _ = (b0 ++ b1).extractLsb' 0 8 := BitVec.extractLsb'_append_eq_of_le (by decide)
    _ = b1 := BitVec.extractLsb'_append_eq_right

/-- `W[15:8]`. -/
theorem headerWord_extractLsb_len2 : (b0 ++ b1 ++ b2 ++ b3 : BitVec 32).extractLsb 15 8 = b2 :=
  calc (b0 ++ b1 ++ b2 ++ b3).extractLsb' 8 8
    _ = (b0 ++ b1 ++ b2).extractLsb' 0 8 := BitVec.extractLsb'_append_eq_of_le (by decide)
    _ = b2 := BitVec.extractLsb'_append_eq_right

end

/-! ## The frame checks as equations of `exec` -/

section
variable {s : State} {f : Nat}

/-- A check aborts where its error condition holds and goes on to `t` where not: one next state either way. -/
theorem ite_abort_next {bad good : Prop} [Decidable bad] [Decidable good] (hgood : good ↔ ¬ bad) (t : State)
    (e : BlockError) (info : ErrorInfo) :
    (if bad then abort s e info else .next t) = .next (if good then t else s.raise e info) := by
  by_cases hbad : bad
  · rw [if_pos hbad, if_neg fun hg => hgood.1 hg hbad, abort_eq]
  · rw [if_neg hbad, if_pos (hgood.2 hbad)]

/-- R101 with the four header bytes present. -/
theorem exec_faChkstart_of_headerIntro {start1 start2 : Byte} (hf : s.frameOff = some f) (hsize : 4 ≤ s.rawLen - f)
    (h1 : Memory.read? s.raw f = some start1) (h2 : Memory.read? s.raw (f + 3) = some start2) :
    exec .faChkstart s =
      .next (if start1 = startMarker ∧ start2 = startMarker then { s with phase := .faChklen }
        else s.raise (.framing .badStartMarker) (.frameOff f)) := by
  have hpresent : ¬ remaining s f < headerIntroLength := Nat.not_lt.2 hsize
  change execFaChkstart s = _
  rw [execFaChkstart, need_of_some hf, if_neg hpresent, memReadByte_of_some (a := f + start1Offset) h1,
    memReadByte_of_some h2]
  have hmarkers : start1 = startMarker ∧ start2 = startMarker ↔ ¬ (start1 ≠ startMarker ∨ start2 ≠ startMarker) := by
    simp only [not_or, Decidable.not_not, ne_eq]
  exact ite_abort_next hmarkers _ _ _

/-- R102. -/
theorem exec_faChklen_of_read {len1 len2 : Byte} (hf : s.frameOff = some f)
    (h1 : Memory.read? s.raw (f + 1) = some len1) (h2 : Memory.read? s.raw (f + 2) = some len2) :
    exec .faChklen s =
      .next (if len1 = len2 then { s with phase := .faChksize }
        else s.raise (.framing .lengthMismatch) (.frameOff f)) := by
  change execFaChklen s = _
  rw [execFaChklen, need_of_some hf, memReadByte_of_some h1, memReadByte_of_some h2]
  exact ite_abort_next Decidable.not_not.symm _ _ _

/-- R104. -/
theorem exec_faChkstop_of_read {len stop : Byte} (hf : s.frameOff = some f) (hl : s.l = some len)
    (hstop : Memory.read? s.raw (f + len.toNat + 5) = some stop) :
    exec .faChkstop s =
      .next (if stop = stopMarker
        then { s with phase := if s.params.checksumVerify then .faChksum else .faAppend }
        else s.raise (.framing .badStopMarker) (.frameOff f)) := by
  have hoffset : stopOffset f len = f + len.toNat + 5 := by
    simp only [stopOffset, headerIntroLength, footerLength]
    omega
  change execFaChkstop s = _
  rw [execFaChkstop, need_of_some hf, need_of_some hl, hoffset, memReadByte_of_some hstop]
  exact ite_abort_next Decidable.not_not.symm _ _ _

end

/-- Settles O5: each test on the header word is the operation's own test on its bytes. -/
theorem frameChecksAreMaskTests : Obligations.FrameChecksAreMaskTests := by
  intro s f b0 b1 b2 b3 hf hsize h0 h1 h2 h3
  refine ⟨?chkstart, ?chklen, ?chkstop⟩
  case chkstart =>
    simp only [headerWord_masked_eq_iff]
    exact exec_faChkstart_of_headerIntro hf hsize h0 h3
  case chklen =>
    rw [headerWord_extractLsb_len1, headerWord_extractLsb_len2]
    exact exec_faChklen_of_read hf h1 h2
  case chkstop =>
    intro len stop hl hstop
    exact exec_faChkstop_of_read hf hl hstop

end Sys2Proof.Machine
end

section
/-! The Frame Assembler's FA.INIT, FA.CHKLEN, FA.CHKSTOP and FA.ADVANCE (R100, R102, R104, R107): the whole next state of
each, from the equations of `exec`. -/

namespace Sys2Proof.Machine

/-- R100. -/
theorem exec_faInit (s : State) : exec .faInit s = .next s.initAttempt := rfl

/-- The end of the frame at `f`, with the two constants that R107 names written out. -/
theorem add_frameSize (f : Nat) (len : Byte) : f + frameSize len = f + 4 + len.toNat + 2 := by
  simp only [frameSize, headerIntroLength, footerLength, Nat.add_assoc]

/-- R107. -/
theorem exec_faAdvance_of_some {s : State} {f : Nat} {len : Byte} (hf : s.frameOff = some f) (hl : s.l = some len) :
    exec .faAdvance s =
      .next { s with
        frameOff := some (f + frameSize len)
        phase := if f + frameSize len ≥ s.rawLen then .shChkmin else .faChkstart } := by
  change execFaAdvance s = _
  rw [execFaAdvance, need_of_some hf, need_of_some hl]

/-- Settles O16: `initAttempt` is the state that R100 writes. -/
theorem faInitStartsAtOffsetZero : Obligations.FaInitStartsAtOffsetZero := by
  intro s
  rw [exec_faInit, State.initAttempt, Memory.clear]

/-- Settles O18: the equation for two length bytes that are read, asked the other way round. -/
theorem faChklenComparesLengthBytes : Obligations.FaChklenComparesLengthBytes := by
  intro s f b1 b2 hf h1 h2
  rw [exec_faChklen_of_read hf h1 h2]
  simp only [ne_eq, ite_not]

/-- Settles O20: the equation for a stop byte that is read, asked the other way round. -/
theorem faChkstopChecksStopByte : Obligations.FaChkstopChecksStopByte := by
  intro s f len stop hf hl hstop
  rw [exec_faChkstop_of_read hf hl hstop]
  simp only [ne_eq, ite_not]

/-- Settles O23: the step to the next frame is the frame's size. -/
theorem faAdvanceMovesToTheNextFrame : Obligations.FaAdvanceMovesToTheNextFrame := by
  intro s f len hf hl
  rw [exec_faAdvance_of_some hf hl, add_frameSize]

end Sys2Proof.Machine
end

section
/-! The Secure-Header Parser's three leading checks, its two length-field readers and SH.LATCH (R120 to R124, R127): the
whole next state of each. -/

namespace Sys2Proof.Machine

/-! ## The leading checks (R120 to R122) -/

/-- A check that aborts or goes on answers a next state, with the test inside. -/
theorem ite_abort_else_next {s : State} (bad : Prop) [Decidable bad] (t : State) (e : BlockError) (info : ErrorInfo) :
    (if bad then abort s e info else .next t) = .next (if bad then s.raise e info else t) := by
  rw [abort_eq, apply_ite Host.Outcome.next]

/-- R122 compares the byte as a number; no two bytes have the same number. -/
theorem toNat_eq_titleLen_iff (n : Byte) : n.toNat = titleLen ↔ n = 8 :=
  BitVec.toNat_inj (y := 8)

/-- Settles O24: with CT at hand SH.CHKMIN is its one length test. -/
theorem shChkminRequiresTwentyBytes : Obligations.ShChkminRequiresTwentyBytes := by
  intro s ct hct
  change execShChkmin s = _
  rw [execShChkmin, need_of_some hct, ite_abort_else_next]

/-- Settles O25: with `CT[0]` read, SH.CHKTAG is its one test on that byte. -/
theorem shChktagChecksCipherTag : Obligations.ShChktagChecksCipherTag := by
  intro s ct tag hct htag
  change execShChktag s = _
  rw [execShChktag, need_of_some hct, memReadByte_of_some htag, ite_abort_else_next]

/-- Settles O26: with `CT[1]` read, SH.CHKSTL tests its number, which is the test on the byte itself. -/
theorem shChkstlChecksTitleLength : Obligations.ShChkstlChecksTitleLength := by
  intro s ct n hct hn
  change execShChkstl s = _
  rw [execShChkstl, need_of_some hct, memReadByte_of_some hn, ite_abort_else_next]
  simp only [ne_eq, toNat_eq_titleLen_iff]

/-! ## The length field (R123, R124) -/

section
variable {s : State} {ct : Memory}

/-- Form G1 (R78): the byte itself, as 16 bits. -/
theorem formG1_eq (b : Byte) : formG1 b = ⟨BitVec.ofNat 16 b.toNat, 0⟩ := by
  rw [formG1, zext16, BitVec.ofNat_toNat]

/-- Form V2 with the one length that the marker allows (R80). -/
theorem formV2_marker : formV2 0xF8 = ⟨248, 1⟩ := rfl

/-- R123 on a first byte other than 82: nothing is asked of the bytes after it. -/
theorem exec_shLenGen_of_formG1 {b : Byte} (hct : s.ct = some ct) (hb : Memory.read? ct 10 = some b)
    (hne : b ≠ twoByteLenMark) : exec .shLenGen s = .next (s.latchLength (formG1 b)) := by
  change execShLenGen s = _
  rw [execShLenGen, need_of_some hct, memReadByte_of_some hb, if_neg hne]

/-- R123 after 82. -/
theorem exec_shLenGen_of_formG3 {hi lo : Byte} (hct : s.ct = some ct)
    (hb : Memory.read? ct 10 = some twoByteLenMark) (hhi : Memory.read? ct 11 = some hi)
    (hlo : Memory.read? ct 12 = some lo) : exec .shLenGen s = .next (s.latchLength (formG3 hi lo)) := by
  change execShLenGen s = _
  rw [execShLenGen, need_of_some hct, memReadByte_of_some hb, if_pos rfl, memReadByte_of_some hhi,
    memReadByte_of_some hlo]

/-- R124 with the three bytes read. -/
theorem exec_shLenVq_of_read {b0 b1 b2 : Byte} (hct : s.ct = some ct) (h0 : Memory.read? ct 10 = some b0)
    (h1 : Memory.read? ct 11 = some b1) (h2 : Memory.read? ct 12 = some b2) :
    exec .shLenVq s =
      if isV2Marker b0 b1 b2 then .next (s.latchLength (formV2 b1))
      else .next (s.raise (.header .malformedLength) (.bytes [b0, b1, b2])) := by
  change execShLenVq s = _
  rw [execShLenVq, need_of_some hct, memReadByte_of_some h0, memReadByte_of_some h1, memReadByte_of_some h2, abort_eq]

end

/-- Settles O27: the two forms, told apart by the first byte; each latches its length and offset. -/
theorem shLenGenReadsGenericLength : Obligations.ShLenGenReadsGenericLength := by
  intro s ct b hct hb
  constructor
  case left =>
    intro hne
    rw [exec_shLenGen_of_formG1 hct hb hne, formG1_eq, State.latchLength]
  case right =>
    rintro hi lo rfl hhi hlo
    rw [exec_shLenGen_of_formG3 hct hb hhi hlo, formG3, be16, State.latchLength]

/-- Settles O28: on the marker the length byte is F8, so form V2 gives 248 and offset 1; any other three bytes are
MalformedLength. -/
theorem shLenVqAcceptsOnlyTheMarker : Obligations.ShLenVqAcceptsOnlyTheMarker := by
  intro s ct b0 b1 b2 hct h0 h1 h2
  rw [exec_shLenVq_of_read hct h0 h1 h2]
  by_cases hmarker : b0 = 0x81 ∧ b1 = 0xF8 ∧ b2 = 0x20
  case pos =>
    rw [if_pos hmarker, if_pos ((isV2Marker_iff b0 b1 b2).2 hmarker)]
    obtain ⟨-, rfl, -⟩ := hmarker
    rw [formV2_marker, State.latchLength]
  case neg =>
    rw [if_neg hmarker, if_neg (mt (isV2Marker_iff b0 b1 b2).1 hmarker)]

/-! ## The latch (R127) -/

/-- Settles O31: both reads answer the values given, and SH.LATCH tests neither. -/
theorem shLatchCopiesTitleAndCounter : Obligations.ShLatchCopiesTitleAndCounter := by
  intro s h ct title ctr hoff hct htitle hctr
  change execShLatch s = _
  rw [execShLatch, need_of_some hoff, need_of_some hct, memReadVec_of_read htitle, frameCtrOffset_eq,
    memReadVec_of_read hctr]

end Sys2Proof.Machine
end

section
/-! The length contract of the Gcm primitive (R145, R147): every part of AES-128 answers as many bytes as it must, so
GcmRef's keystream covers its data. The library's primitive has the contract in its type. -/

namespace Sys2Proof.Machine

/-! ## AES-128 on blocks of 16 bytes -/

@[simp] theorem xorBytes_length (a b : ByteString) : (xorBytes a b).length = min a.length b.length :=
  List.length_zipWith

@[simp] theorem aesShiftRows_length (st : ByteString) : (aesShiftRows st).length = 16 := rfl

@[simp] theorem aesMixColumns_length (st : ByteString) : (aesMixColumns st).length = st.length := by
  induction st using aesMixColumns.induct with
  | case1 a b c d rest ih => simp [aesMixColumns, ih]
  | case2 rest hshort => rw [aesMixColumns.eq_2 rest hshort]

theorem aesNextKey_length (rcon : Byte) {k : ByteString} (hk : k.length = 16) : (aesNextKey rcon k).length = 16 := by
  simp [aesNextKey, hk]

/-- Every round, the last one included, answers one block. -/
theorem aesRounds_length (rcons : List Byte) {k st : ByteString} (hk : k.length = 16) (hst : st.length = 16) :
    (aesRounds rcons k st).length = 16 := by
  induction rcons, k, st using aesRounds.induct with
  | case1 k st => exact hst
  | case2 rcon k st => simp [aesRounds, aesNextKey_length rcon hk]
  | case3 rcon rcons k st hmore ih =>
    rw [aesRounds.eq_3 k st rcon rcons hmore]
    exact ih (aesNextKey_length rcon hk) (by simp [aesNextKey_length rcon hk])

theorem aesEncrypt_length {k block : ByteString} (hk : k.length = 16) (hblock : block.length = 16) :
    (aesEncrypt k block).length = 16 :=
  aesRounds_length _ hk (by simp [hk, hblock])

/-! ## GcmRef and the three primitives -/

theorem keystream_length {k iv : ByteString} (hk : k.length = 16) (hiv : iv.length = 12) (blocks : Nat)
    (ctr : BitVec 32) : (keystream k iv blocks ctr).length = 16 * blocks := by
  induction blocks generalizing ctr with
  | zero => rfl
  | succ n ih =>
    have hblock : (iv ++ counterBytes ctr).length = 16 := by simp [counterBytes, hiv]
    rw [keystream, List.length_append, aesEncrypt_length hk hblock, ih]
    omega

theorem gcmRef_length (key : Vector Byte 16) (iv : Vector Byte 12) (data : ByteString) :
    (gcmRef key iv data).length = data.length := by
  rw [gcmRef, xorBytes_length, keystream_length Vector.length_toList Vector.length_toList]
  omega

theorem gcmLibrary_ok_length {key : Vector Byte 16} {iv : Vector Byte 12} {aad data p : ByteString}
    (h : gcmLibrary key iv aad data = .ok p) : p.length = data.length := by
  unfold gcmLibrary at h
  split at h
  · cases h
  · next answer _ =>
    cases h
    exact Vector.length_toList

/-- R145: an answer has as many bytes as the data, whichever primitive is chosen. -/
theorem gcm_ok_length {choice : GcmChoice} {key : Vector Byte 16} {iv : Vector Byte 12} {aad data p : ByteString}
    (h : gcm choice key iv aad data = .ok p) : p.length = data.length := by
  cases choice with
  | library => exact gcmLibrary_ok_length h
  | ref =>
    cases h
    exact gcmRef_length key iv data
  | fail => cases h

end Sys2Proof.Machine
end

section
/-! The Decryptor's DX.IV and DX.GCM (R140, R141): the whole next state of each, and the memory that DX.GCM leaves. -/

namespace Sys2Proof.Machine

/-! ## The IV constructor (R140) -/

@[simp] theorem ivOf_toList (title : Vector Byte 8) (ctr : Vector Byte 4) :
    (ivOf title ctr).toList = title.toList ++ ctr.toList :=
  Vector.toList_append

/-- The concatenation of R140 names one IV. -/
theorem eq_ivOf_iff {iv : Vector Byte 12} {title : Vector Byte 8} {ctr : Vector Byte 4} :
    iv = ivOf title ctr ↔ iv.toList = title.toList ++ ctr.toList := by
  rw [← ivOf_toList, Vector.toList_inj]

/-- R140. -/
theorem exec_dxIv_of_some {s : State} {title : Vector Byte 8} {ctr : Vector Byte 4} (htitle : s.sysTitle = some title)
    (hctr : s.frameCtr = some ctr) : exec .dxIv s = .next { s with iv := some (ivOf title ctr), phase := .dxGcm } := by
  change execDxIv s = _
  rw [execDxIv, need_of_some htitle, need_of_some hctr]

/-- Settles O33: the 12 bytes given are those that DX.IV writes. -/
theorem dxIvConcatenatesTitleAndCounter : Obligations.DxIvConcatenatesTitleAndCounter := by
  intro s title ctr iv htitle hctr hiv
  rw [exec_dxIv_of_some htitle hctr, eq_ivOf_iff.2 hiv]

/-! ## The call of the primitive (R141) -/

/-- What DX.GCM makes of the primitive's answer. -/
def State.afterGcm (s : State) : GcmAnswer → State
  | .authFail => s.raise (.decrypt .authenticationFailed) .none
  | .ok p => { s with pt := some (Memory.ofBytes p), phase := .dxChkpt }

/-- R141: with its operands at hand DX.GCM is the one call, and its answer alone decides the next state. -/
theorem exec_dxGcm_of_read {s : State} {iv : Vector Byte 12} {h : BitVec 2} {len : BitVec 16} {ct : Memory}
    {data : ByteString} (hiv : s.iv = some iv) (hoff : s.hdrOff = some h) (hlen : s.msgLen = some len)
    (hct : s.ct = some ct) (hdata : Memory.read ct (16 + h.toNat) len.toNat = some data) :
    exec .dxGcm s = .next (s.afterGcm (gcm s.params.gcm s.key iv [] data)) := by
  change execDxGcm s = _
  rw [execDxGcm, need_of_some hiv, need_of_some hoff, need_of_some hlen, need_of_some hct, cipherOffset_eq,
    memRead_of_some hdata]
  cases gcm s.params.gcm s.key iv [] data with
  | authFail => rfl
  | ok p => rfl

/-- The frame of a write to PT: the other two address spaces read as before. -/
theorem State.readByte?_of_pt_written (s : State) (p : ByteString) (ph : Phase) (sp : Space) (a : Nat) :
    ({ s with pt := some (Memory.ofBytes p), phase := ph } : State).readByte? sp a =
      if sp = .pt then p[a]? else s.readByte? sp a := by
  cases sp with
  | raw => rfl
  | ct => rfl
  | pt => exact Memory.read?_ofBytes p a

/-- Settles O34: the two answers of the one call; the plaintext has the length of the data read, which is MSG_LEN. -/
theorem dxGcmDecryptsTheRest : Obligations.DxGcmDecryptsTheRest := by
  intro s iv h len ct data hiv hoff hlen hct hdata
  have hexec := exec_dxGcm_of_read hiv hoff hlen hct hdata
  constructor
  case left =>
    intro hfail
    rw [hexec, hfail, State.afterGcm]
  case right =>
    intro p hok
    refine ⟨?exec, ?length, ?memory⟩
    case exec => rw [hexec, hok, State.afterGcm]
    case length => exact (gcm_ok_length hok).trans (Memory.read_length hdata)
    case memory => exact State.readByte?_of_pt_written s p .dxChkpt

end Sys2Proof.Machine
end

section
/-! The control transfers of R165. An operation is a chain of reads and checks that ends in a next state or an abort, so
what holds of every state it can answer is proved along that chain, one rule per link. -/

namespace Sys2Proof.Machine

/-! ## What holds of every next state that is answered -/

/-- Every next state that `r` answers satisfies `P`; of a fault or a refusal nothing is asked. -/
def AnswersOnly (P : State → Prop) (r : StepResult) : Prop := ∀ t, r = .next t → P t

namespace AnswersOnly

variable {α : Type} {P : State → Prop} {s t : State} {sp : Space} {m : Memory} {a n : Nat}

theorem next (h : P t) : AnswersOnly P (.next t) := by
  intro u hu
  cases hu
  exact h

theorem refused (r : Refusal) : AnswersOnly P (.refused r) := by
  intro u hu
  cases hu

theorem abort {e : BlockError} {info : ErrorInfo} (h : P (s.raise e info)) :
    AnswersOnly P (Machine.abort s e info) := next h

theorem need {r : Register} {v : Option α} {k : α → StepResult} (h : ∀ x, v = some x → AnswersOnly P (k x)) :
    AnswersOnly P (Machine.need r v k) := by
  intro u hu
  obtain ⟨x, hx, hk⟩ := need_eq_next hu
  exact h x hx u hk

theorem memReadByte {k : Byte → StepResult} (h : ∀ b, Memory.read? m a = some b → AnswersOnly P (k b)) :
    AnswersOnly P (Machine.memReadByte sp m a k) := by
  intro u hu
  obtain ⟨b, hb, hk⟩ := memReadByte_eq_next hu
  exact h b hb u hk

theorem memRead {k : ByteString → StepResult} (h : ∀ bs, Memory.read m a n = some bs → AnswersOnly P (k bs)) :
    AnswersOnly P (Machine.memRead sp m a n k) := by
  intro u hu
  obtain ⟨bs, hbs, -, hk⟩ := memRead_eq_next hu
  exact h bs hbs u hk

theorem memReadVec {k : Vector Byte n → StepResult}
    (h : ∀ v : Vector Byte n, Memory.read m a n = some v.toList → AnswersOnly P (k v)) :
    AnswersOnly P (Machine.memReadVec sp m a n k) := by
  intro u hu
  obtain ⟨v, hv, hk⟩ := memReadVec_eq_next hu
  exact h v hv u hk

theorem ite {c : Prop} [Decidable c] {r r' : StepResult} (hpos : c → AnswersOnly P r)
    (hneg : ¬ c → AnswersOnly P r') : AnswersOnly P (if c then r else r') := by
  by_cases hc : c
  · rw [if_pos hc]
    exact hpos hc
  · rw [if_neg hc]
    exact hneg hc

/-- A check of an operation: abort where `bad` holds, go on where not. -/
theorem check {bad : Prop} [Decidable bad] {e : BlockError} {info : ErrorInfo} {r : StepResult}
    (hbad : P (s.raise e info)) (hgood : ¬ bad → AnswersOnly P r) :
    AnswersOnly P (if bad then Machine.abort s e info else r) :=
  ite (fun _ => abort hbad) hgood

end AnswersOnly

/-! ## The two ways a row of the table can end -/

section
variable {s t : State} {ph : Phase} {errors : List BlockError}

theorem completesOrRaises_of_completed (hphase : t.phase = ph) (houtcome : t.outcome = s.outcome)
    (hevents : t.events = s.events) : completesOrRaises s t ph errors :=
  .inl ⟨hphase, houtcome, hevents⟩

theorem completesOrRaises_raise {e : BlockError} (info : ErrorInfo) (he : e ∈ errors) :
    completesOrRaises s (s.raise e info) ph errors :=
  .inr ⟨e, he, info, rfl⟩

/-- The last link of an operation that completes. -/
theorem answersOnly_completed (hphase : t.phase = ph) (houtcome : t.outcome = s.outcome)
    (hevents : t.events = s.events) : AnswersOnly (completesOrRaises s · ph errors) (.next t) :=
  .next (completesOrRaises_of_completed hphase houtcome hevents)

/-- A check whose error is in the row. -/
theorem answersOnly_check {bad : Prop} [Decidable bad] {e : BlockError} {info : ErrorInfo} {r : StepResult}
    (he : e ∈ errors) (hgood : ¬ bad → AnswersOnly (completesOrRaises s · ph errors) r) :
    AnswersOnly (completesOrRaises s · ph errors) (if bad then abort s e info else r) :=
  .check (completesOrRaises_raise info he) hgood

end

/-! ## The Frame Assembler's rows -/

section
variable (s : State)

theorem exec_faChkstart_row :
    AnswersOnly (completesOrRaises s · .faChklen [.framing .truncated, .framing .badStartMarker])
      (exec .faChkstart s) :=
  .need fun _ _ => answersOnly_check (by simp) fun _ => .memReadByte fun _ _ => .memReadByte fun _ _ =>
    answersOnly_check (by simp) fun _ => answersOnly_completed rfl rfl rfl

theorem exec_faChklen_row :
    AnswersOnly (completesOrRaises s · .faChksize [.framing .lengthMismatch]) (exec .faChklen s) :=
  .need fun _ _ => .memReadByte fun _ _ => .memReadByte fun _ _ =>
    answersOnly_check (by simp) fun _ => answersOnly_completed rfl rfl rfl

theorem exec_faChksize_row :
    AnswersOnly (completesOrRaises s · .faChkstop [.framing .truncated]) (exec .faChksize s) :=
  .need fun _ _ => .memReadByte fun _ _ => answersOnly_check (by simp) fun _ =>
    answersOnly_check (by simp) fun _ => answersOnly_completed rfl rfl rfl

theorem exec_faChkstop_row :
    AnswersOnly (completesOrRaises s · (if s.params.checksumVerify = true then .faChksum else .faAppend)
      [.framing .badStopMarker]) (exec .faChkstop s) :=
  .need fun _ _ => .need fun _ _ => .memReadByte fun _ _ =>
    answersOnly_check (by simp) fun _ => answersOnly_completed rfl rfl rfl

theorem exec_faChksum_row :
    AnswersOnly (completesOrRaises s · .faAppend [.framing .badChecksum]) (exec .faChksum s) :=
  .need fun _ _ => .need fun _ _ => .memRead fun _ _ => .memReadByte fun _ _ =>
    answersOnly_check (by simp) fun _ => answersOnly_completed rfl rfl rfl

theorem exec_faAppend_row :
    AnswersOnly (completesOrRaises s · .faAdvance [.framing .truncated]) (exec .faAppend s) :=
  .need fun _ _ => .need fun _ _ => answersOnly_check (by simp) fun _ => .need fun _ _ => .memRead fun _ _ =>
    answersOnly_completed rfl rfl rfl

/-- The one backward edge, taken as long as the new FRAME_OFF is inside RAW. -/
theorem exec_faAdvance_row :
    AnswersOnly (fun t => ∃ f, t.frameOff = some f ∧
      completesOrRaises s t (if f ≥ s.rawLen then .shChkmin else .faChkstart) []) (exec .faAdvance s) :=
  .need fun _ _ => .need fun _ _ => .next ⟨_, rfl, completesOrRaises_of_completed rfl rfl rfl⟩

/-! ## The Secure-Header Parser's rows -/

theorem exec_shChkmin_row :
    AnswersOnly (completesOrRaises s · .shChktag [.header .tooShort]) (exec .shChkmin s) :=
  .need fun _ _ => answersOnly_check (by simp) fun _ => answersOnly_completed rfl rfl rfl

theorem exec_shChktag_row :
    AnswersOnly (completesOrRaises s · .shChkstl [.header .unsupportedCipher]) (exec .shChktag s) :=
  .need fun _ _ => .memReadByte fun _ _ =>
    answersOnly_check (by simp) fun _ => answersOnly_completed rfl rfl rfl

theorem exec_shChkstl_row :
    AnswersOnly (completesOrRaises s · .shLen [.header .unsupportedTitleLength]) (exec .shChkstl s) :=
  .need fun _ _ => .memReadByte fun _ _ =>
    answersOnly_check (by simp) fun _ => answersOnly_completed rfl rfl rfl

/-- Either length form completes; SH.LEN.GEN raises nothing. -/
theorem exec_shLenGen_row : AnswersOnly (completesOrRaises s · .shCons []) (exec .shLenGen s) :=
  .need fun _ _ => .memReadByte fun _ _ => .ite
    (fun _ => .memReadByte fun _ _ => .memReadByte fun _ _ => answersOnly_completed rfl rfl rfl)
    (fun _ => answersOnly_completed rfl rfl rfl)

theorem exec_shLenVq_row :
    AnswersOnly (completesOrRaises s · .shCons [.header .malformedLength]) (exec .shLenVq s) :=
  .need fun _ _ => .memReadByte fun _ _ => .memReadByte fun _ _ => .memReadByte fun _ _ => .ite
    (fun _ => answersOnly_completed rfl rfl rfl)
    (fun _ => .abort (completesOrRaises_raise _ (by simp)))

theorem exec_shCons_row :
    AnswersOnly (completesOrRaises s · .shChksec [.header .lengthInconsistent]) (exec .shCons s) :=
  .need fun _ _ => .need fun _ _ => .need fun _ _ => answersOnly_check (by simp) fun _ =>
    answersOnly_check (by simp) fun _ => answersOnly_completed rfl rfl rfl

theorem exec_shChksec_row :
    AnswersOnly (completesOrRaises s · .shLatch [.header .unsupportedSecurityByte]) (exec .shChksec s) :=
  .need fun _ _ => .need fun _ _ => .memReadByte fun _ _ => .ite
    (fun _ => answersOnly_completed rfl rfl rfl)
    (fun _ => .abort (completesOrRaises_raise _ (by simp)))

theorem exec_shLatch_row : AnswersOnly (completesOrRaises s · .dxIv []) (exec .shLatch s) :=
  .need fun _ _ => .need fun _ _ => .memReadVec fun _ _ => .memReadVec fun _ _ =>
    answersOnly_completed rfl rfl rfl

/-! ## The Decryptor's rows -/

theorem exec_dxIv_row : AnswersOnly (completesOrRaises s · .dxGcm []) (exec .dxIv s) :=
  .need fun _ _ => .need fun _ _ => answersOnly_completed rfl rfl rfl

/-- Either answer of the primitive ends the row. -/
theorem exec_dxGcm_row :
    AnswersOnly (completesOrRaises s · .dxChkpt [.decrypt .authenticationFailed]) (exec .dxGcm s) := by
  refine .need fun iv _ => .need fun _ _ => .need fun _ _ => .need fun _ _ => .memRead fun data _ => ?_
  cases gcm s.params.gcm s.key iv [] data with
  | authFail => exact .abort (completesOrRaises_raise _ (by simp))
  | ok p => exact answersOnly_completed rfl rfl rfl

/-- The success action ends the attempt. -/
theorem exec_handoff_phase : AnswersOnly (fun t => t.phase = .idle) (exec .handoff s) := by
  intro t ht
  obtain ⟨title, ctr, len, off, sec, pt, -, -, -, -, -, -, rfl⟩ := successAction_eq_next ht
  exact State.succeed_phase ..

theorem exec_dxChkpt_row :
    AnswersOnly (fun t => exec .handoff s = .next t ∧ t.phase = .idle ∨
      ∃ info, t = s.raise (.decrypt .invalidPlaintext) info) (exec .dxChkpt s) :=
  .need fun _ _ => .check (.inr ⟨_, rfl⟩) fun _ =>
    .need fun _ _ => .memReadByte fun _ _ => .memReadByte fun _ _ => .ite
    (fun _ t ht => .inl ⟨ht, exec_handoff_phase s t ht⟩)
    (fun _ => .abort (.inr ⟨_, rfl⟩))

end

/-! ## The host transactions in IDLE (R160 to R163) -/

section
variable {s t : State}

/-- R162, R163: TRIGGER to a constructed block in IDLE is a test for an empty buffer. -/
theorem exec_trigger_of_idle (hconstructed : s.constructed = true) (hidle : s.phase = .idle) :
    exec .trigger s = if s.rawLen = 0 then .next s else .next s.initAttempt := by
  have hfree : s.busy = false := (State.busy_eq_false s).2 hidle
  change execTrigger s = _
  simp only [execTrigger, hconstructed, hfree, Bool.not_true, Bool.false_eq_true, if_false]

/-- Settles O13: the test finds the buffer empty. -/
theorem triggerOnEmptyBufferChangesNothing : Obligations.TriggerOnEmptyBufferChangesNothing := by
  intro s hconstructed hidle hempty
  have hlen : s.rawLen = 0 := by rw [State.rawLen_eq, hempty, List.length_nil]
  rw [exec_trigger_of_idle hconstructed hidle, if_pos hlen]

/-- R163 on a non-empty buffer. -/
theorem exec_trigger_eq_faInit (hconstructed : s.constructed = true) (hidle : s.phase = .idle)
    (hraw : 1 ≤ s.rawLen) : exec .trigger s = exec .faInit s := by
  rw [exec_trigger_of_idle hconstructed hidle, if_neg (Nat.one_le_iff_ne_zero.1 hraw), exec_faInit]

/-- Where a transaction admitted in IDLE leaves PHASE: an attempt is started only on a non-empty buffer. -/
theorem exec_hostTransaction_phase {i : Instr} (hhost : i.isHostTransaction = true) (hidle : s.phase = .idle) :
    AnswersOnly (fun t => t.phase = .idle ∨ (t.phase = .faChkstart ∧ 1 ≤ s.rawLen)) (exec i s) := by
  cases i with
  | construct key profile =>
    change AnswersOnly _ (execConstruct key profile s)
    unfold execConstruct
    cases toVector? 16 key with
    | none => exact .refused _
    | some k => exact .ite (fun _ => .refused _) fun _ => .next (.inl rfl)
  | push b =>
    exact .ite (fun _ => .refused _) fun _ => .ite (fun _ => .refused _) fun _ => .ite (fun _ => .refused _) fun _ =>
      .next (.inl hidle)
  | trigger =>
    exact .ite (fun _ => .refused _) fun _ => .ite (fun _ => .refused _) fun _ => .ite (fun _ => .next (.inl hidle))
      fun hraw => .next (.inr ⟨rfl, Nat.one_le_iff_ne_zero.2 hraw⟩)
  | _ => cases hhost

/-! ## The step (R165) -/

/-- In IDLE the operation that is run is a host transaction, on the state with its line taken off. -/
theorem selectOperation_idle_run {i : Instr} {u : State} (hidle : s.phase = .idle)
    (h : selectOperation s = .run i u) : i.isHostTransaction = true ∧ ∃ rest, u = { s with pending := rest } := by
  unfold selectOperation at h
  rw [sequencedOperation_eq_none.2 hidle] at h
  cases hpending : s.pending with
  | nil => simp [hpending] at h
  | cons line rest =>
    cases hdecode : decode line with
    | error e => simp [hpending, hdecode] at h
    | ok j =>
      cases hhost : j.isHostTransaction with
      | false => simp [hpending, hdecode, hhost] at h
      | true =>
        simp only [hpending, hdecode, hhost, if_true, Selection.run.injEq] at h
        obtain ⟨rfl, rfl⟩ := h
        exact ⟨hhost, rest, rfl⟩

theorem step_phase_of_idle (hidle : s.phase = .idle) :
    AnswersOnly (fun t => t.phase = .idle ∨ (t.phase = .faChkstart ∧ 1 ≤ s.rawLen)) (step s) := by
  intro t hstep
  obtain ⟨i, u, hrun, hexec⟩ | ⟨-, rfl⟩ := step_eq_next hstep
  · obtain ⟨hhost, rest, rfl⟩ := selectOperation_idle_run hidle hrun
    exact exec_hostTransaction_phase (s := { s with pending := rest }) hhost hidle t hexec
  · exact .inl hidle

/-- During an attempt a step is the operation of its row. -/
theorem step_of_sequenced {i : Instr} (h : sequencedOperation s.phase s.profile = some i) : step s = exec i s := by
  rw [step, selectOperation_of_sequenced h]

/-- One row of the table: a step from its PHASE is its operation, and ends as that operation does. -/
theorem step_row {i : Instr} {ph : Phase} {pr : Profile} {P : State → Prop} (hrow : AnswersOnly P (exec i s))
    (hsequenced : sequencedOperation ph pr = some i) (hstep : step s = .next t) (hphase : s.phase = ph)
    (hprofile : s.profile = pr) : exec i s = .next t ∧ P t := by
  subst hphase hprofile
  rw [step_of_sequenced hsequenced] at hstep
  exact ⟨hstep, hrow t hstep⟩

end

/-- Settles O10: IDLE is left by TRIGGER alone; every other PHASE has its row, SH_LEN one for each profile. -/
theorem controlTransfersFollowTheTable : Obligations.ControlTransfersFollowTheTable := by
  intro s
  refine ⟨?start, fun t hstep =>
    ⟨fun hidle => step_phase_of_idle hidle t hstep,
      fun hp => step_row (exec_faChkstart_row s) rfl hstep hp rfl,
      fun hp => step_row (exec_faChklen_row s) rfl hstep hp rfl,
      fun hp => step_row (exec_faChksize_row s) rfl hstep hp rfl,
      fun hp => step_row (exec_faChkstop_row s) rfl hstep hp rfl,
      fun hp => step_row (exec_faChksum_row s) rfl hstep hp rfl,
      fun hp => step_row (exec_faAppend_row s) rfl hstep hp rfl,
      fun hp => step_row (exec_faAdvance_row s) rfl hstep hp rfl,
      fun hp => step_row (exec_shChkmin_row s) rfl hstep hp rfl,
      fun hp => step_row (exec_shChktag_row s) rfl hstep hp rfl,
      fun hp => step_row (exec_shChkstl_row s) rfl hstep hp rfl,
      fun hp hprofile => step_row (exec_shLenGen_row s) rfl hstep hp hprofile,
      fun hp hprofile => step_row (exec_shLenVq_row s) rfl hstep hp hprofile,
      fun hp => step_row (exec_shCons_row s) rfl hstep hp rfl,
      fun hp => step_row (exec_shChksec_row s) rfl hstep hp rfl,
      fun hp => step_row (exec_shLatch_row s) rfl hstep hp rfl,
      fun hp => step_row (exec_dxIv_row s) rfl hstep hp rfl,
      fun hp => step_row (exec_dxGcm_row s) rfl hstep hp rfl,
      fun hp => step_row (exec_dxChkpt_row s) rfl hstep hp rfl⟩⟩
  case start =>
    intro hidle hconstructed hraw
    exact ⟨exec_trigger_eq_faInit hconstructed hidle hraw, s.initAttempt, exec_faInit s, State.initAttempt_phase s⟩

end Sys2Proof.Machine
end

section
/-! What a constructed block never changes (R213, R218): KEY, PROFILE, the parameters, and that it is constructed. Every
operation keeps these four together, along its chain of reads and checks; the sequencer hands it a state that agrees
with the machine's in them, so every step keeps them too. -/

namespace Sys2Proof.Machine

/-- What construction settles for good: KEY, PROFILE, the parameters, and that the block exists. -/
def State.configuration (s : State) : Vector Byte 16 × Profile × Params × Bool :=
  (s.key, s.profile, s.params, s.constructed)

theorem State.configuration_eq_iff {s t : State} :
    t.configuration = s.configuration ↔
      t.key = s.key ∧ t.profile = s.profile ∧ t.params = s.params ∧ t.constructed = s.constructed := by
  simp only [State.configuration, Prod.mk.injEq]

@[simp] theorem State.raise_configuration (s : State) (e : BlockError) (info : ErrorInfo) :
    (s.raise e info).configuration = s.configuration := rfl

@[simp] theorem State.succeed_configuration (s : State) (h : SecureHeader) (p : ByteString) :
    (s.succeed h p).configuration = s.configuration := rfl

@[simp] theorem State.initAttempt_configuration (s : State) : s.initAttempt.configuration = s.configuration := rfl

@[simp] theorem State.latchLength_configuration (s : State) (v : LengthField) :
    (s.latchLength v).configuration = s.configuration := rfl

/-! ## The operations -/

/-- A check keeps the configuration if what follows it does: its other exit is `raise`. -/
theorem AnswersOnly.configuration_check {s : State} {bad : Prop} [Decidable bad] {e : BlockError} {info : ErrorInfo}
    {r : StepResult} (hgood : AnswersOnly (·.configuration = s.configuration) r) :
    AnswersOnly (·.configuration = s.configuration) (if bad then Machine.abort s e info else r) :=
  .check (s.raise_configuration e info) fun _ => hgood

/-- The same for a check that names what it accepts, not what it rejects. -/
theorem AnswersOnly.configuration_accept {s : State} {good : Prop} [Decidable good] {e : BlockError} {info : ErrorInfo}
    {r : StepResult} (hgood : AnswersOnly (·.configuration = s.configuration) r) :
    AnswersOnly (·.configuration = s.configuration) (if good then r else Machine.abort s e info) :=
  .ite (fun _ => hgood) fun _ => .abort (s.raise_configuration e info)

section
variable (s : State)

/-- R218: the one operation that writes KEY and PROFILE is not admitted a second time. -/
theorem execConstruct_configuration (key : ByteString) (profile : Profile) (hconstructed : s.constructed = true) :
    AnswersOnly (·.configuration = s.configuration) (execConstruct key profile s) := by
  unfold execConstruct
  cases toVector? 16 key with
  | none => exact .refused _
  | some k => exact .ite (fun _ => .refused _) fun hnew => absurd hconstructed hnew

theorem successAction_configuration : AnswersOnly (·.configuration = s.configuration) (successAction s) := by
  intro t ht
  obtain ⟨title, ctr, len, off, sec, pt, -, -, -, -, -, -, rfl⟩ := successAction_eq_next ht
  exact State.succeed_configuration ..

/-- Either answer of the primitive keeps the configuration: KEY is read, never written. -/
theorem execDxGcm_configuration : AnswersOnly (·.configuration = s.configuration) (execDxGcm s) := by
  refine .need fun iv _ => .need fun _ _ => .need fun _ _ => .need fun _ _ => .memRead fun data _ => ?_
  cases gcm s.params.gcm s.key iv [] data with
  | authFail => exact .abort (State.raise_configuration ..)
  | ok p => exact .next rfl

/-- R213, R218: each of the 23 operations, on a constructed block. -/
theorem exec_configuration (i : Instr) (hconstructed : s.constructed = true) :
    AnswersOnly (·.configuration = s.configuration) (exec i s) := by
  cases i with
  | construct key profile => exact execConstruct_configuration s key profile hconstructed
  | push b =>
    exact .ite (fun _ => .refused _) fun _ => .ite (fun _ => .refused _) fun _ => .ite (fun _ => .refused _) fun _ =>
      .next rfl
  | trigger =>
    exact .ite (fun _ => .refused _) fun _ => .ite (fun _ => .refused _) fun _ => .ite (fun _ => .next rfl) fun _ =>
      .next s.initAttempt_configuration
  | faInit => exact .next s.initAttempt_configuration
  | faChkstart =>
    exact .need fun _ _ => .configuration_check <| .memReadByte fun _ _ => .memReadByte fun _ _ =>
      .configuration_check <| .next rfl
  | faChklen => exact .need fun _ _ => .memReadByte fun _ _ => .memReadByte fun _ _ => .configuration_check <| .next rfl
  | faChksize =>
    exact .need fun _ _ => .memReadByte fun _ _ => .configuration_check <| .configuration_check <| .next rfl
  | faChkstop => exact .need fun _ _ => .need fun _ _ => .memReadByte fun _ _ => .configuration_check <| .next rfl
  | faChksum =>
    exact .need fun _ _ => .need fun _ _ => .memRead fun _ _ => .memReadByte fun _ _ =>
      .configuration_check <| .next rfl
  | faAppend =>
    exact .need fun _ _ => .need fun _ _ => .configuration_check <| .need fun _ _ => .memRead fun _ _ => .next rfl
  | faAdvance => exact .need fun _ _ => .need fun _ _ => .next rfl
  | shChkmin => exact .need fun _ _ => .configuration_check <| .next rfl
  | shChktag => exact .need fun _ _ => .memReadByte fun _ _ => .configuration_check <| .next rfl
  | shChkstl => exact .need fun _ _ => .memReadByte fun _ _ => .configuration_check <| .next rfl
  | shLenGen =>
    exact .need fun _ _ => .memReadByte fun _ _ => .ite
      (fun _ => .memReadByte fun _ _ => .memReadByte fun _ _ => .next (s.latchLength_configuration _))
      (fun _ => .next (s.latchLength_configuration _))
  | shLenVq =>
    exact .need fun _ _ => .memReadByte fun _ _ => .memReadByte fun _ _ => .memReadByte fun _ _ =>
      .configuration_accept <| .next (s.latchLength_configuration _)
  | shCons =>
    exact .need fun _ _ => .need fun _ _ => .need fun _ _ => .configuration_check <| .configuration_check <| .next rfl
  | shChksec =>
    exact .need fun _ _ => .need fun _ _ => .memReadByte fun _ _ =>
      .configuration_accept <| .next rfl
  | shLatch =>
    exact .need fun _ _ => .need fun _ _ => .memReadVec fun _ _ => .memReadVec fun _ _ => .next rfl
  | dxIv => exact .need fun _ _ => .need fun _ _ => .next rfl
  | dxGcm => exact execDxGcm_configuration s
  | dxChkpt =>
    exact .need fun _ _ => .configuration_check <| .need fun _ _ => .memReadByte fun _ _ => .memReadByte fun _ _ =>
      .configuration_accept <| successAction_configuration s
  | handoff => exact successAction_configuration s

end

/-! ## The step -/

section
variable {s : State}

/-- The sequencer at most takes a line off `pending` before it runs an operation. -/
theorem selectOperation_run_configuration {i : Instr} {u : State} (h : selectOperation s = .run i u) :
    u.configuration = s.configuration := by
  cases hsequenced : sequencedOperation s.phase s.profile with
  | none =>
    obtain ⟨-, rest, rfl⟩ := selectOperation_idle_run (sequencedOperation_eq_none.1 hsequenced) h
    rfl
  | some j =>
    rw [selectOperation_of_sequenced hsequenced] at h
    cases h
    rfl

theorem step_configuration (hconstructed : s.constructed = true) :
    AnswersOnly (·.configuration = s.configuration) (step s) := by
  intro t hstep
  obtain ⟨i, u, hrun, hexec⟩ | ⟨-, rfl⟩ := step_eq_next hstep
  case inl =>
    have hu : u.configuration = s.configuration := selectOperation_run_configuration hrun
    obtain ⟨-, -, -, huconstructed⟩ := State.configuration_eq_iff.1 hu
    exact (exec_configuration u i (huconstructed.trans hconstructed) t hexec).trans hu
  case inr => rfl

end

/-- Settles O54: the step and every operation keep all four parts of the configuration. -/
theorem configurationNeverChanges : Obligations.ConfigurationNeverChanges := by
  intro s t hconstructed hnext
  have hconfiguration : t.configuration = s.configuration := by
    obtain hstep | ⟨i, hexec⟩ := hnext
    · exact step_configuration hconstructed t hstep
    · exact exec_configuration s i hconstructed t hexec
  rw [State.configuration_eq_iff, hconstructed] at hconfiguration
  exact hconfiguration

end Sys2Proof.Machine
end

section
/-! The lines of the stimulus (R87, R88). Each reader of the decoder is characterised by the text it accepts, so the two
directions of the round trip are the two directions of one equivalence per reader. -/

namespace Sys2Proof

/-! ## Hexadecimal digits -/

@[simp] theorem hexValue_hexDigit : ∀ d : BitVec 4, hexValue (hexDigit d) = some d := by decide

/-- The two ranges of upper-case digits, and no other character, have a value. -/
theorem eq_hexDigit_of_hexValue {c : Byte} {d : BitVec 4} (h : hexValue c = some d) : c = hexDigit d := by
  unfold hexValue at h
  by_cases hdecimal : 0x30 ≤ c.toNat ∧ c.toNat ≤ 0x39
  case pos =>
    rw [if_pos hdecimal] at h
    cases h
    have hvalue : (BitVec.ofNat 4 (c.toNat - 0x30)).toNat = c.toNat - 0x30 := by
      rw [BitVec.toNat_ofNat]
      omega
    rw [hexDigit, hvalue, if_pos (by omega), Nat.add_sub_cancel' hdecimal.1, BitVec.ofNat_toNat, BitVec.setWidth_eq]
  case neg =>
    rw [if_neg hdecimal] at h
    by_cases hletter : 0x41 ≤ c.toNat ∧ c.toNat ≤ 0x46
    case pos =>
      rw [if_pos hletter] at h
      cases h
      have hvalue : (BitVec.ofNat 4 (c.toNat - 0x37)).toNat = c.toNat - 0x37 := by
        rw [BitVec.toNat_ofNat]
        omega
      rw [hexDigit, hvalue, if_neg (by omega), Nat.add_sub_cancel' (by omega), BitVec.ofNat_toNat, BitVec.setWidth_eq]
    case neg =>
      rw [if_neg hletter] at h
      cases h

theorem hexValue_eq_some {c : Byte} {d : BitVec 4} : hexValue c = some d ↔ c = hexDigit d := by
  constructor
  case mp => exact eq_hexDigit_of_hexValue
  case mpr =>
    rintro rfl
    exact hexValue_hexDigit d

/-- A byte is its two halves, the high one first. -/
theorem byte_halves_append (b : Byte) : b.extractLsb' 4 4 ++ b.extractLsb' 0 4 = b := by
  rw [BitVec.extractLsb'_append_extractLsb'_eq_extractLsb' (by rfl)]
  exact BitVec.extractLsb'_eq_self

theorem byteOfHex_hexByte (b : Byte) :
    byteOfHex (hexDigit (b.extractLsb' 4 4)) (hexDigit (b.extractLsb' 0 4)) = some b := by
  simp only [byteOfHex, hexValue_hexDigit, byte_halves_append]

/-- The two digits of a byte are the only spelling of it. -/
theorem hexByte_of_byteOfHex {hi lo b : Byte} (h : byteOfHex hi lo = some b) : hexByte b = [hi, lo] := by
  unfold byteOfHex at h
  split at h
  · next high low hhigh hlow =>
    cases h
    rw [hexByte, BitVec.extractLsb'_append_eq_left, BitVec.extractLsb'_append_eq_right, hexValue_eq_some.1 hhigh,
      hexValue_eq_some.1 hlow]
  · cases h

/-! ## Runs of bytes and fixed texts -/

/-- A run of digits ends at the first two characters that are no byte. -/
theorem readHexRun_hexRun_append (key : ByteString) {c d : Byte} {text : ByteString} (hend : byteOfHex c d = none) :
    readHexRun (hexRun key ++ c :: d :: text) = (key, c :: d :: text) := by
  induction key with
  | nil => simp [hexRun, readHexRun, hend]
  | cons b key ih => simp [hexRun, hexByte, readHexRun, byteOfHex_hexByte, ih]

theorem hexRun_readHexRun (text : ByteString) : hexRun (readHexRun text).1 ++ (readHexRun text).2 = text := by
  induction text using readHexRun.induct with
  | case1 hi lo rest b hb ih => simp [readHexRun, hb, hexRun, hexByte_of_byteOfHex hb, ih]
  | case2 hi lo rest hnone => simp [readHexRun, hnone, hexRun]
  | case3 text hshort => rw [readHexRun.eq_2 text hshort, hexRun, List.nil_append]

theorem afterHead_eq_some {head text rest : ByteString} : afterHead head text = some rest ↔ text = head ++ rest := by
  induction head generalizing text with
  | nil => simp [afterHead]
  | cons h head ih =>
    cases text with
    | nil => simp [afterHead]
    | cons c text =>
      by_cases hc : h = c
      · simp [afterHead, hc, ih]
      · simp [afterHead, hc, Ne.symm hc]

/-- The text that follows a head does not matter for finding it. -/
theorem afterHead_append (head rest : ByteString) : afterHead head (head ++ rest) = some rest :=
  afterHead_eq_some.2 rfl

/-- A head that another one contradicts is not found. -/
theorem afterHead_constructHead_eq_none (rest : ByteString) : afterHead pushHead (constructHead ++ rest) = none := rfl

/-! ## The mnemonics without operands -/

/-- The table of R87 spells every operation as the encoder does. -/
theorem plainOperations_encode : ∀ entry ∈ plainOperations, entry.1 = encode entry.2 := by decide

theorem plainOperations_no_pushHead : ∀ entry ∈ plainOperations, afterHead pushHead entry.1 = none := by decide

theorem plainOperations_no_constructHead : ∀ entry ∈ plainOperations, afterHead constructHead entry.1 = none := by
  decide

theorem eq_encode_of_lookup {line : ByteString} {i : Instr} (h : plainOperations.lookup line = some i) :
    line = encode i := by
  obtain ⟨before, after, htable, -⟩ := List.lookup_eq_some_iff.1 h
  exact plainOperations_encode (line, i) (by simp [htable])

/-- A text with a head that no mnemonic has is no mnemonic. -/
theorem lookup_append_eq_none {head : ByteString} (hhead : ∀ entry ∈ plainOperations, afterHead head entry.1 = none)
    (rest : ByteString) : plainOperations.lookup (head ++ rest) = none := by
  rw [List.lookup_eq_none_iff]
  intro entry hentry
  have hnone := hhead entry hentry
  rw [bne_iff_ne]
  rintro hline
  rw [← hline, afterHead_append] at hnone
  cases hnone

/-! ## The line of each family -/

theorem decode_push_line (operand : ByteString) : decode (pushHead ++ operand) = decodePush operand := by
  simp only [decode, lookup_append_eq_none plainOperations_no_pushHead, afterHead_append]

theorem decode_construct_line (operands : ByteString) :
    decode (constructHead ++ operands) = decodeConstruct operands := by
  simp only [decode, lookup_append_eq_none plainOperations_no_constructHead, afterHead_constructHead_eq_none,
    afterHead_append]

theorem decodePush_eq_ok {operand : ByteString} {i : Instr} (h : decodePush operand = .ok i) :
    pushHead ++ operand = encode i := by
  unfold decodePush at h
  split at h
  · next hi lo =>
    split at h
    · next b hb =>
      cases h
      rw [encode, hexByte_of_byteOfHex hb]
    · cases h
  · cases h

theorem decodePush_hexByte (b : Byte) : decodePush (hexByte b) = .ok (.push b) := by
  simp only [hexByte, decodePush, byteOfHex_hexByte]

theorem decodeConstruct_eq_ok {operands : ByteString} {i : Instr} (h : decodeConstruct operands = .ok i) :
    constructHead ++ operands = encode i := by
  have hrun := hexRun_readHexRun operands
  unfold decodeConstruct at h
  split at h
  · next htail =>
    cases h
    rw [encode, ← htail, List.append_assoc, hrun]
  · split at h
    · next htail =>
      cases h
      rw [encode, ← htail, List.append_assoc, hrun]
    · cases h

/-- The text after the key begins with a space, which is no digit. -/
theorem readHexRun_profileTail (key : ByteString) (profile : Profile) :
    readHexRun (hexRun key ++ profileTail profile) = (key, profileTail profile) := by
  cases profile with
  | generic => exact readHexRun_hexRun_append key rfl
  | vendorQuirk => exact readHexRun_hexRun_append key rfl

theorem decodeConstruct_hexRun (key : ByteString) (profile : Profile) :
    decodeConstruct (hexRun key ++ profileTail profile) = .ok (.construct key profile) := by
  have hdistinct : profileTail .vendorQuirk ≠ profileTail .generic := by decide
  cases profile with
  | generic => simp only [decodeConstruct, readHexRun_profileTail, if_true]
  | vendorQuirk => simp only [decodeConstruct, readHexRun_profileTail, if_neg hdistinct, if_true]

/-! ## The round trip -/

theorem decode_encode (i : Instr) : decode (encode i) = .ok i := by
  cases i with
  | construct key profile =>
    rw [encode, List.append_assoc, decode_construct_line, decodeConstruct_hexRun]
  | push b => rw [encode, decode_push_line, decodePush_hexByte]
  | _ => rfl

theorem encode_of_decode {line : ByteString} {i : Instr} (h : decode line = .ok i) : line = encode i := by
  unfold decode at h
  split at h
  · next hplain =>
    cases h
    exact eq_encode_of_lookup hplain
  · split at h
    · next operand hpush => rw [afterHead_eq_some.1 hpush, decodePush_eq_ok h]
    · split at h
      · next operands hconstruct => rw [afterHead_eq_some.1 hconstruct, decodeConstruct_eq_ok h]
      · cases h

/-- Settles O1: one case for each of the two families with operands; a line without operands is read off the table. -/
theorem decodeOfEncodeGivesInstruction : Obligations.DecodeOfEncodeGivesInstruction := decode_encode

/-- Settles O2: what each of the three readers accepts is the encoder's text. -/
theorem decodedLineIsItsEncoding : Obligations.DecodedLineIsItsEncoding := fun _ _ => encode_of_decode

/-- The wrong digits of PUSH, and a name that is no mnemonic. -/
theorem decode_rejected_lines :
    decode (pushHead ++ [0x36, 0x66]) = .error .badPushOperand ∧
    decode (pushHead ++ [0x61, 0x36]) = .error .badPushOperand ∧
    decode [0x50, 0x4F, 0x50] = .error .unknownMnemonic := ⟨rfl, rfl, rfl⟩

/-- Settles O3: the accepted lines are encodings, written out. -/
theorem writtenLinesDecode : Obligations.WrittenLinesDecode := by
  refine ⟨decode_encode (.push 0x68), decode_encode .trigger, decode_encode .faInit, decode_encode .shLenVq,
    decode_encode .dxGcm, decode_encode .handoff, decode_rejected_lines⟩

end Sys2Proof
end

section
/-! The patterns of opcode_table.json (R72, R80, R84): which operations have one, and that a word placed by
`withFetchWord` stands where the sequencer takes its next operation from. -/

namespace Sys2Proof.Machine

/-- A word is read only as an operation that has a row with a pattern. -/
theorem mem_patternRows_of_decodeTableWord {nbits w : Nat} {i : Instr} (h : decodeTableWord nbits w = some i) :
    i ∈ patternRows.map PatternRow.instr := by
  unfold decodeTableWord at h
  split at h
  · obtain ⟨row, hrow, rfl⟩ := Option.map_eq_some_iff.1 h
    exact List.mem_map_of_mem (List.mem_of_find?_eq_some hrow)
  · cases h

/-- A placed pattern leaves PHASE, and at SH_LEN PROFILE, at the operation that it shows. -/
theorem sequencedOperation_placePattern {i : Instr} (hpattern : i ∈ patternRows.map PatternRow.instr) (bs : ByteString)
    (s : State) : sequencedOperation (placePattern i bs s).phase (placePattern i bs s).profile = some i := by
  simp only [patternRows, List.map_cons, List.map_nil, List.mem_cons, List.not_mem_nil, or_false] at hpattern
  rcases hpattern with rfl | rfl | rfl | rfl | rfl | rfl | rfl | rfl | rfl | rfl <;> rfl

theorem State.withFetchWord_of_decoded {nbits w : Nat} {i : Instr} (h : decodeTableWord nbits w = some i) (s : State) :
    s.withFetchWord nbits w = placePattern i (bytesOfWord (nbits / 8) w) s := by
  simp only [State.withFetchWord, placeTableWord, h]

/-- Settles O8: the placed state's PHASE selects the operation that the word shows. -/
theorem stepRunsThePlacedWord : Obligations.StepRunsThePlacedWord := by
  intro s nbits w i hdecode
  rw [State.withFetchWord_of_decoded hdecode]
  exact step_of_sequenced (sequencedOperation_placePattern (mem_patternRows_of_decodeTableWord hdecode) _ s)

/-- Settles O4: ten words, evaluated. -/
theorem tableWordsDecode : Obligations.TableWordsDecode := by
  unfold Obligations.TableWordsDecode
  decide

end Sys2Proof.Machine
end

section
/-! The sequencer's choice (R165, R207) as equations of `step`: the operation of the PHASE during an attempt, in IDLE
the host's next line. -/

namespace Sys2Proof.Machine

section
variable {s : State}

/-- R165, with PHASE named. -/
theorem step_of_phase {ph : Phase} {i : Instr} (hphase : s.phase = ph) (h : sequencedOperation ph s.profile = some i) :
    step s = exec i s :=
  step_of_sequenced (by rw [hphase, h])

/-- Settles O6: each PHASE has its row in the sequencer's table; SH_LEN has one for each profile. -/
theorem stepRunsThePhaseOperation : Obligations.StepRunsThePhaseOperation := fun s =>
  ⟨fun hp => step_of_phase hp rfl, fun hp => step_of_phase hp rfl, fun hp => step_of_phase hp rfl,
    fun hp => step_of_phase hp rfl, fun hp => step_of_phase hp rfl, fun hp => step_of_phase hp rfl,
    fun hp => step_of_phase hp rfl, fun hp => step_of_phase hp rfl, fun hp => step_of_phase hp rfl,
    fun hp => step_of_phase hp rfl, fun hp hprofile => step_of_phase hp (by rw [hprofile]; rfl),
    fun hp hprofile => step_of_phase hp (by rw [hprofile]; rfl), fun hp => step_of_phase hp rfl,
    fun hp => step_of_phase hp rfl, fun hp => step_of_phase hp rfl, fun hp => step_of_phase hp rfl,
    fun hp => step_of_phase hp rfl, fun hp => step_of_phase hp rfl⟩

/-! ## In IDLE -/

section
variable {line : ByteString} {rest : List ByteString}

/-- R207. -/
theorem step_of_idle_nil (hidle : s.phase = .idle) (hpending : s.pending = []) : step s = .next s := by
  simp only [step, selectOperation, sequencedOperation_eq_none.2 hidle, hpending]

theorem step_of_idle_host {i : Instr} (hidle : s.phase = .idle) (hpending : s.pending = line :: rest)
    (hdecode : decode line = .ok i) (hhost : i.isHostTransaction = true) :
    step s = exec i { s with pending := rest } := by
  simp only [step, selectOperation, sequencedOperation_eq_none.2 hidle, hpending, hdecode, hhost, if_true]

theorem step_of_idle_internal {i : Instr} (hidle : s.phase = .idle) (hpending : s.pending = line :: rest)
    (hdecode : decode line = .ok i) (hhost : i.isHostTransaction = false) : step s = .refused .notHostTransaction := by
  simp only [step, selectOperation, sequencedOperation_eq_none.2 hidle, hpending, hdecode, hhost, Bool.false_eq_true,
    if_false]

theorem step_of_idle_undecodable {e : DecodeError} (hidle : s.phase = .idle) (hpending : s.pending = line :: rest)
    (hdecode : decode line = .error e) : step s = .refused (.undecodable e) := by
  simp only [step, selectOperation, sequencedOperation_eq_none.2 hidle, hpending, hdecode]

end

/-- Settles O7: the three answers of the decoder. -/
theorem stepRunsTheDecodedTransaction : Obligations.StepRunsTheDecodedTransaction := fun _ _ _ hidle hpending =>
  ⟨fun _ hdecode hhost => step_of_idle_host hidle hpending hdecode hhost,
    fun _ hdecode hhost => step_of_idle_internal hidle hpending hdecode hhost,
    fun _ hdecode => step_of_idle_undecodable hidle hpending hdecode⟩

/-- Settles O9: no line to take, so the sequencer waits. -/
theorem idleBlockWaits : Obligations.IdleBlockWaits := fun _ => step_of_idle_nil

end

end Sys2Proof.Machine
end

section
/-! Buffers as the obligations see them: what is appended and what reads as before (R18, R51, R52). -/

namespace Sys2Proof.Machine

/-- A buffer has no byte past its end. -/
theorem Memory.read?_eq_none {m : Memory} (hwf : Memory.wf m = true) {a : Nat} (ha : m.length ≤ a) :
    Memory.read? m a = none := by
  rw [Memory.read?_eq hwf, List.getElem?_eq_none_iff, Memory.bytes_length]
  exact ha

/-- An append seen from the bytes that are new: every other offset reads as before. -/
theorem Memory.read?_append_eq_ite {m : Memory} (hwf : Memory.wf m = true) (bs : ByteString) (a : Nat) :
    Memory.read? (Memory.append m bs) a =
      if m.length ≤ a ∧ a < m.length + bs.length then bs[a - m.length]? else Memory.read? m a := by
  rw [Memory.read?_append hwf]
  by_cases hold : a < m.length
  case pos => rw [if_pos hold, if_neg fun hnew => Nat.not_lt.2 hnew.1 hold]
  case neg =>
    rw [if_neg hold]
    by_cases hnew : m.length ≤ a ∧ a < m.length + bs.length
    case pos => rw [if_pos hnew]
    case neg =>
      rw [if_neg hnew, Memory.read?_eq_none hwf (Nat.not_lt.1 hold), List.getElem?_eq_none_iff]
      omega

theorem Memory.append_append (m : Memory) (bs cs : ByteString) :
    Memory.append (Memory.append m bs) cs = Memory.append m (bs ++ cs) := by
  simp only [Memory.append, List.append_assoc, List.length_append, Memory.cellsFrom_length, Memory.cellsFrom_append]

@[simp] theorem Memory.append_nil (m : Memory) : Memory.append m [] = m := List.append_nil m

/-- Settles O46: the two laws of an append. -/
theorem appendKeepsTheCanonicalForm : Obligations.AppendKeepsTheCanonicalForm := fun _ bs hwf =>
  ⟨Memory.wf_append hwf bs, Memory.read?_append hwf bs⟩

end Sys2Proof.Machine
end

section
/-! The host transactions (R160 to R163, R171, R212): their refusals, told apart by the first condition that fails, and
the state that each leaves where it is admitted. -/

namespace Sys2Proof.Machine

section
variable {s : State}

/-! ## CONSTRUCT -/

theorem exec_construct_of_key {k : Vector Byte 16} {key : ByteString} (hkey : k.toList = key) (profile : Profile)
    (hnew : s.constructed = false) : exec (.construct key profile) s = .next (s.constructWith k profile) := by
  simp only [exec, execConstruct, toVector?_eq_some.2 hkey, hnew, Bool.false_eq_true, if_false]

theorem exec_construct_of_length_ne {key : ByteString} (hlen : key.length ≠ 16) (profile : Profile) :
    exec (.construct key profile) s = .refused .keyLength := by
  simp only [exec, execConstruct, toVector?_eq_none.2 hlen]

theorem exec_construct_again {key : ByteString} (hlen : key.length = 16) (profile : Profile)
    (hconstructed : s.constructed = true) :
    exec (.construct key profile) s = .refused .alreadyConstructed := by
  obtain ⟨k, hk⟩ := Option.ne_none_iff_exists'.1 fun hnone => toVector?_eq_none.1 hnone hlen
  simp only [exec, execConstruct, hk, hconstructed, if_true]

/-- Settles O11: `constructWith` is the state that R160 writes. -/
theorem constructMakesTheBlock : Obligations.ConstructMakesTheBlock := fun _ _ profile =>
  ⟨fun _ hkey hnew => exec_construct_of_key hkey profile hnew, fun hlen => exec_construct_of_length_ne hlen profile,
    fun hlen hconstructed => exec_construct_again hlen profile hconstructed⟩

/-- Settles O43: the reset state has no block, so CONSTRUCT with a 16-byte key is admitted. -/
theorem resetTable : Obligations.ResetTable := fun k profile =>
  ⟨State.reset.constructWith k profile, exec_construct_of_key rfl profile rfl, rfl, rfl, rfl, rfl, rfl, rfl, rfl, rfl,
    rfl, rfl, rfl, rfl, rfl, rfl, rfl, rfl, rfl⟩

/-! ## PUSH and TRIGGER -/

theorem exec_push_of_idle (hconstructed : s.constructed = true) (hidle : s.phase = .idle) (b : Byte) :
    exec (.push b) s =
      if bufferLimit s.params = some s.rawLen then .refused .bufferFull
      else .next { s with raw := Memory.append s.raw [b] } := by
  have hfree : s.busy = false := (State.busy_eq_false s).2 hidle
  simp only [exec, execPush, hconstructed, hfree, Bool.not_true, Bool.false_eq_true, if_false, rawFull_iff]

theorem exec_push_of_busy (hconstructed : s.constructed = true) (hbusy : s.phase ≠ .idle) (b : Byte) :
    exec (.push b) s = .refused .busy := by
  simp only [exec, execPush, hconstructed, (State.busy_eq_true s).2 hbusy, Bool.not_true, Bool.false_eq_true, if_false,
    if_true]

theorem exec_push_of_unconstructed (hnew : s.constructed = false) (b : Byte) :
    exec (.push b) s = .refused .notConstructed := by
  simp only [exec, execPush, hnew, Bool.not_false, if_true]

theorem exec_trigger_of_busy (hconstructed : s.constructed = true) (hbusy : s.phase ≠ .idle) :
    exec .trigger s = .refused .busy := by
  simp only [exec, execTrigger, hconstructed, (State.busy_eq_true s).2 hbusy, Bool.not_true, Bool.false_eq_true,
    if_false, if_true]

theorem exec_trigger_of_unconstructed (hnew : s.constructed = false) : exec .trigger s = .refused .notConstructed := by
  simp only [exec, execTrigger, hnew, Bool.not_false, if_true]

/-- The frame of PUSH: one offset of one address space is new. -/
theorem State.readByte?_of_pushed (hwf : Memory.wf s.raw = true) (b : Byte) (sp : Space) (a : Nat) :
    ({ s with raw := Memory.append s.raw [b] } : State).readByte? sp a =
      if sp = .raw ∧ a = s.rawLen then some b else s.readByte? sp a := by
  cases sp with
  | ct => rfl
  | pt => rfl
  | raw =>
    change Memory.read? (Memory.append s.raw [b]) a = if _ then some b else Memory.read? s.raw a
    have hnew : s.raw.length ≤ a ∧ a < s.raw.length + [b].length ↔ Space.raw = .raw ∧ a = s.rawLen := by
      simp only [List.length_singleton, State.rawLen_eq, true_and]
      omega
    rw [Memory.read?_append_eq_ite hwf]
    simp only [hnew]
    split
    · next heq => simp [heq.2]
    · rfl

/-- Settles O12: the one test that is left in IDLE, and the two refusals before it. -/
theorem pushStoresOneByte : Obligations.PushStoresOneByte := by
  intro s b
  refine ⟨fun hconstructed hidle hroom => ⟨?exec, ?length, fun hwf => State.readByte?_of_pushed hwf b⟩, ?full,
    fun hconstructed hbusy => exec_push_of_busy hconstructed hbusy b, fun hnew => exec_push_of_unconstructed hnew b⟩
  case exec => rw [exec_push_of_idle hconstructed hidle, if_neg hroom]
  case length => exact Memory.append_length s.raw [b]
  case full =>
    intro hconstructed hidle hfull
    rw [exec_push_of_idle hconstructed hidle, if_pos hfull]

/-- Settles O14: on a non-empty buffer TRIGGER is FA.INIT. -/
theorem triggerStartsTheAttempt : Obligations.TriggerStartsTheAttempt := fun _ =>
  ⟨fun hconstructed hidle hraw => exec_trigger_eq_faInit hconstructed hidle hraw, exec_trigger_of_busy,
    exec_trigger_of_unconstructed⟩

end

/-! ## PUSH lines (R62, R89) -/

/-- A step that takes a PUSH line off `pending`. -/
theorem step_of_push_line {s : State} {b : Byte} {rest : List ByteString} (hconstructed : s.constructed = true)
    (hidle : s.phase = .idle) (hpending : s.pending = encode (.push b) :: rest)
    (hroom : bufferLimit s.params ≠ some s.rawLen) :
    step s = .next { s with raw := Memory.append s.raw [b], pending := rest } := by
  rw [step_of_idle_host hidle hpending (decode_encode (.push b)) rfl]
  exact (exec_push_of_idle (s := { s with pending := rest }) hconstructed hidle b).trans (if_neg hroom)

/-- A run goes on from the state that its first step answers. -/
theorem run_succ_of_step {M : Host.Core} {s t : M.State} (hstep : M.step s = .next t) (k : Nat) :
    M.run (k + 1) s = M.run k t := by
  simp only [Host.Core.run, hstep]

/-- Settles O15: induction on the bytes; each line finds room, since those behind it still need theirs. -/
theorem pushLinesFillRawInOrder : Obligations.PushLinesFillRawInOrder := by
  intro bs
  induction bs with
  | nil =>
    intro s rest _ _ hpending _
    rw [Memory.append_nil, ← List.nil_append rest, ← show s.pending = [] ++ rest from hpending]
    rfl
  | cons b bs ih =>
    intro s rest hconstructed hidle hpending hroom
    have hfree : bufferLimit s.params ≠ some s.rawLen := by
      intro hfull
      have := hroom _ hfull
      rw [List.length_cons] at this
      omega
    have hstep := step_of_push_line (rest := pushN bs ++ rest) hconstructed hidle hpending hfree
    have hrest := ih { s with raw := Memory.append s.raw [b], pending := pushN bs ++ rest } rest hconstructed hidle rfl
    simp only [State.rawLen_eq, Memory.append_length, Memory.append_append, List.length_singleton] at hrest
    refine (run_succ_of_step (M := core) hstep bs.length).trans (hrest fun n hn => ?_)
    have := hroom n hn
    rw [State.rawLen_eq, List.length_cons] at this
    omega

end Sys2Proof.Machine
end

section
/-! The Frame Assembler's checks with more than one test, FA.CHKSUM and FA.APPEND (R101, R103, R105, R106): the whole
next state of each from the bytes it reads. -/

namespace Sys2Proof.Machine

section
variable {s : State} {f : Nat}

/-- R101 where the frame header is cut off: no byte is read. -/
theorem exec_faChkstart_of_short (hf : s.frameOff = some f) (hshort : s.rawLen - f < 4) :
    exec .faChkstart s = .next (s.raise (.framing .truncated) (.frameOff f)) :=
  (need_of_some hf _).trans (if_pos hshort)

/-- Settles O17: the bounds test stands before the two markers. -/
theorem faChkstartChecksBothMarkers : Obligations.FaChkstartChecksBothMarkers := by
  refine fun s f hf => ⟨exec_faChkstart_of_short hf, fun b0 b3 hsize h0 h3 => ?_⟩
  have hmarkers : ¬ (b0 = startMarker ∧ b3 = startMarker) ↔ b0 ≠ 0x68 ∨ b3 ≠ 0x68 :=
    Decidable.not_and_iff_not_or_not
  rw [exec_faChkstart_of_headerIntro hf hsize h0 h3, ← ite_not]
  simp only [hmarkers]

/-- R103, both tests. -/
theorem exec_faChksize_of_read {len : Byte} (hf : s.frameOff = some f) (hlen : Memory.read? s.raw (f + 1) = some len) :
    exec .faChksize s =
      .next (if s.rawLen - f < len.toNat + 3 then s.raise (.framing .truncated) (.frameOff f)
        else if s.rawLen - f < len.toNat + 6 then s.raise (.framing .truncated) (.frameOff f)
        else { s with l := some len, phase := .faChkstop }) := by
  change execFaChksize s = _
  rw [execFaChksize, need_of_some hf, memReadByte_of_some hlen, ite_abort_else_next, ite_abort_else_next, frameSize_eq]
  rfl

/-- Settles O19: both tests are about the one length byte that is read. -/
theorem faChksizeRequiresWholeFrame : Obligations.FaChksizeRequiresWholeFrame := fun _ _ _ => exec_faChksize_of_read

/-- The 8-bit sum of R105 over the numbers of the bytes. -/
theorem byteSum_toNat (bs : ByteString) : (byteSum bs).toNat = (bs.map BitVec.toNat).sum % 256 := by
  have hfrom (bs : ByteString) (acc : Byte) :
      (bs.foldl (· + ·) acc).toNat = (acc.toNat + (bs.map BitVec.toNat).sum) % 256 := by
    induction bs generalizing acc with
    | nil => simpa using (Nat.mod_eq_of_lt acc.isLt).symm
    | cons b bs ih => simp [ih, BitVec.toNat_add, Nat.add_assoc]
  simpa [byteSum] using hfrom bs 0

/-- R105. -/
theorem exec_faChksum_of_read {len checksum : Byte} {body : ByteString} (hf : s.frameOff = some f) (hl : s.l = some len)
    (hbody : Memory.read s.raw (f + 4) len.toNat = some body)
    (hsum : Memory.read? s.raw (f + 4 + len.toNat) = some checksum) :
    exec .faChksum s =
      .next (if byteSum body ≠ checksum then s.raise (.framing .badChecksum) (.frameOff f)
        else { s with phase := .faAppend }) := by
  change execFaChksum s = _
  rw [execFaChksum, need_of_some hf, need_of_some hl, bodyOffset_eq, memRead_of_some hbody, checksumOffset_eq,
    memReadByte_of_some hsum, ite_abort_else_next]

/-- R106 on a frame shorter than its control information. -/
theorem exec_faAppend_of_short {len : Byte} (hf : s.frameOff = some f) (hl : s.l = some len)
    (hshort : len.toNat < s.params.nCi.val) :
    exec .faAppend s = .next (s.raise (.framing .truncated) (.frameOff f)) :=
  (need_of_some hf _).trans <| (need_of_some hl _).trans (if_pos hshort)

/-- R106. -/
theorem exec_faAppend_of_read {len : Byte} {ct : Memory} {slice : ByteString} (hf : s.frameOff = some f)
    (hl : s.l = some len) (hlong : s.params.nCi.val ≤ len.toNat) (hct : s.ct = some ct)
    (hslice : Memory.read s.raw (f + 4 + s.params.nCi.val) (len.toNat - s.params.nCi.val) = some slice) :
    exec .faAppend s = .next { s with ct := some (Memory.append ct slice), phase := .faAdvance } := by
  change execFaAppend s = _
  rw [execFaAppend, need_of_some hf, need_of_some hl, if_neg (Nat.not_lt.2 hlong), need_of_some hct,
    payloadOffset_eq, payloadLength_eq, memRead_of_some hslice]

/-- The frame of a write to CT: the other two address spaces, and the old bytes of CT, read as before. -/
theorem State.readByte?_of_ct_appended {ct : Memory} (hct : s.ct = some ct) (hwf : Memory.wf ct = true)
    (slice : ByteString) (ph : Phase) (sp : Space) (a : Nat) :
    ({ s with ct := some (Memory.append ct slice), phase := ph } : State).readByte? sp a =
      if sp = .ct ∧ ct.length ≤ a ∧ a < ct.length + slice.length then slice[a - ct.length]? else s.readByte? sp a := by
  cases sp with
  | raw => rfl
  | pt => rfl
  | ct =>
    have hold : s.readByte? .ct a = Memory.read? ct a := by simp only [State.readByte?, State.buffer_ct, hct]
    simp only [true_and, hold]
    exact Memory.read?_append_eq_ite hwf slice a

end

/-- Settles O22: the two cases of the test, and the law of the append for the memory. -/
theorem faAppendCopiesThePayload : Obligations.FaAppendCopiesThePayload := by
  refine fun s f len hf hl => ⟨exec_faAppend_of_short hf hl, fun ct slice hlong hct hslice =>
    ⟨exec_faAppend_of_read hf hl hlong hct hslice, ?_, fun hwf => State.readByte?_of_ct_appended hct hwf slice _⟩⟩
  rw [Memory.append_length, Memory.read_length hslice]

end Sys2Proof.Machine
end

section
/-! SH.CONS and SH.CHKSEC (R125, R126): the whole next state of each. -/

namespace Sys2Proof.Machine

section
variable {s : State} {h : BitVec 2} {ct : Memory}

/-- R125, the equality read as an addition (log 16). -/
theorem exec_shCons_of_some {v : BitVec 16} (hlenf : s.lenf = some v) (hoff : s.hdrOff = some h)
    (hct : s.ct = some ct) :
    exec .shCons s =
      .next (if v.toNat < s.params.lenCorrection then s.raise (.header .lengthInconsistent) (.lenf v)
        else if ct.length ≠ 16 + h.toNat + (v.toNat - s.params.lenCorrection) then
          s.raise (.header .lengthInconsistent) (.lenf v)
        else { s with msgLen := some (messageLength s.params v), phase := .shChksec }) := by
  change execShCons s = _
  rw [execShCons, need_of_some hlenf, need_of_some hoff, need_of_some hct, consistentLength_eq, messageLength_toNat,
    ite_abort_else_next, ite_abort_else_next]

/-- Settles O29: where CT holds its header the addition is the subtraction, and where not no sum is that short. -/
theorem shConsChecksDeclaredLength : Obligations.ShConsChecksDeclaredLength := by
  intro s v h ct hlenf hoff hct
  rw [exec_shCons_of_some hlenf hoff hct]
  constructor
  case left =>
    intro hlong
    have hequal : ct.length ≠ 16 + h.toNat + (v.toNat - s.params.lenCorrection) ↔
        ct.length - 16 - h.toNat ≠ v.toNat - s.params.lenCorrection := by omega
    simp only [hequal, messageLength]
  case right =>
    intro hshort
    have hdiffer : ct.length ≠ 16 + h.toNat + (v.toNat - s.params.lenCorrection) := by omega
    rw [if_pos hdiffer, ite_self]

/-- R126. -/
theorem exec_shChksec_of_read {b : Byte} (hoff : s.hdrOff = some h) (hct : s.ct = some ct)
    (hb : Memory.read? ct (11 + h.toNat) = some b) :
    exec .shChksec s =
      .next (if b = 0x20 ∨ b = 0x21 then { s with secByte := some b, phase := .shLatch }
        else s.raise (.header .unsupportedSecurityByte) (.byte b)) := by
  change execShChksec s = _
  rw [execShChksec, need_of_some hoff, need_of_some hct, secByteOffset_eq, memReadByte_of_some hb, abort_eq,
    apply_ite Host.Outcome.next]
  simp only [secByteAccepted_iff]

/-- Settles O30: the two accepted values, asked the other way round. -/
theorem shChksecAcceptsTwoValues : Obligations.ShChksecAcceptsTwoValues := by
  intro s h ct b hoff hct hb
  have hreject : ¬ (b = 0x20 ∨ b = 0x21) ↔ b ≠ 0x20 ∧ b ≠ 0x21 := not_or
  rw [exec_shChksec_of_read hoff hct hb, ← ite_not]
  simp only [hreject]

end

end Sys2Proof.Machine
end

section
/-! HANDOFF and DX.CHKPT (R142, R167), and DX.GCM under a primitive with the named property (R146). -/

namespace Sys2Proof.Machine

section
variable {s : State} {title : Vector Byte 8} {ctr : Vector Byte 4} {len : BitVec 16} {h : BitVec 2} {sec : Byte}
  {pt : Memory}

/-- R167 with the six values at hand. -/
theorem exec_handoff_of_some (htitle : s.sysTitle = some title) (hctr : s.frameCtr = some ctr)
    (hlen : s.msgLen = some len) (hoff : s.hdrOff = some h) (hsec : s.secByte = some sec) (hpt : s.pt = some pt) :
    exec .handoff s = .next (s.succeed ⟨title, ctr, len, h, sec⟩ (Memory.bytes pt)) :=
  (need_of_some htitle _).trans <| (need_of_some hctr _).trans <| (need_of_some hlen _).trans <|
    (need_of_some hoff _).trans <| (need_of_some hsec _).trans (need_of_some hpt _)

/-- Settles O36: `succeed` is the state that R167 writes. -/
theorem handoffEmitsPlaintextReady : Obligations.HandoffEmitsPlaintextReady :=
  fun _ _ _ _ _ _ _ htitle hctr hlen hoff hsec hpt => exec_handoff_of_some htitle hctr hlen hoff hsec hpt

/-- R142 where PT[5] does not exist: no byte is read. -/
theorem exec_dxChkpt_of_short (hlen : s.msgLen = some len) (hshort : len.toNat < 6) :
    exec .dxChkpt s = .next (s.raise (.decrypt .invalidPlaintext) .none) :=
  (need_of_some hlen _).trans (if_pos hshort)

/-- R142 with both bytes read: DX.CHKPT is HANDOFF where they are right. -/
theorem exec_dxChkpt_of_read {tag count : Byte} (hlen : s.msgLen = some len) (hlong : 6 ≤ len.toNat)
    (hpt : s.pt = some pt) (htag : Memory.read? pt 0 = some tag) (hcount : Memory.read? pt 5 = some count) :
    exec .dxChkpt s =
      if tag = s.params.structTag ∧ count = 0x0C then exec .handoff s
      else .next (s.raise (.decrypt .invalidPlaintext) .none) := by
  change execDxChkpt s = _
  rw [execDxChkpt, need_of_some hlen, if_neg (Nat.not_lt.2 hlong), need_of_some hpt, memReadByte_of_some htag,
    memReadByte_of_some hcount, abort_eq]
  simp only [plaintextAccepted_iff]
  rfl

end

/-- Settles O35: the test on the length, then the one on the two bytes. -/
theorem dxChkptValidatesThePlaintext : Obligations.DxChkptValidatesThePlaintext := by
  refine fun s len hlen => ⟨exec_dxChkpt_of_short hlen, fun pt b0 b5 hlong hpt h0 h5 => ?_⟩
  rw [exec_dxChkpt_of_read hlen hlong hpt h0 h5]
  constructor
  case left =>
    intro hwrong
    exact if_neg (Decidable.not_and_iff_not_or_not.2 hwrong)
  case right =>
    intro title ctr h sec htag hcount htitle hctr hoff hsec
    rw [if_pos ⟨htag, hcount⟩, exec_handoff_of_some htitle hctr hlen hoff hsec hpt]

/-- Settles O39: the property answers AuthFail for the one call that DX.GCM makes. -/
theorem authenticPrimitiveRejectsChangedData : Obligations.AuthenticPrimitiveRejectsChangedData := by
  intro s produced iv h len ct data data' hauthentic hproduced hdiffer hiv hoff hlen hct hdata
  rw [exec_dxGcm_of_read hiv hoff hlen hct hdata, hauthentic s.key iv data data' hproduced hdiffer, State.afterGcm]

/-- Settles O40: AES-128 and GcmRef evaluated on the two vectors. -/
theorem gcmRefKnownAnswers : Obligations.GcmRefKnownAnswers := by
  unfold Obligations.GcmRefKnownAnswers
  decide +kernel

end Sys2Proof.Machine
end

section
/-! The abort action and the error codes (R180, R196), and the fault of reading what holds no value (R21). -/

namespace Sys2Proof.Machine

/-- Settles O41: every field of `endAttempt` over `dropEphemeral`. -/
theorem abortActionIsOneAction : Obligations.AbortActionIsOneAction := fun _ _ _ => rfl

/-- The block's variants in the order of R180. -/
def blockErrors : List BlockError :=
  [.framing .badStartMarker, .framing .lengthMismatch, .framing .truncated, .framing .badStopMarker,
    .framing .badChecksum, .header .tooShort, .header .unsupportedCipher, .header .unsupportedTitleLength,
    .header .malformedLength, .header .lengthInconsistent, .header .unsupportedSecurityByte,
    .decrypt .authenticationFailed, .decrypt .invalidPlaintext]

/-- The first variant with the code of `e` is `e` itself. -/
theorem find?_code_eq (e : BlockError) : blockErrors.find? (fun e' => e'.code == e.code) = some e := by
  rcases e with e | e | e <;> cases e <;> rfl

/-- No two variants have the same code. -/
theorem BlockError.eq_of_code_eq {e e' : BlockError} (hcode : e.code = e'.code) : e = e' := by
  have hfound := find?_code_eq e
  rw [hcode, find?_code_eq e'] at hfound
  exact (Option.some.inj hfound).symm

/-- Settles O44: the table of R180, and that it is one to one. -/
theorem errorCodesOfTheTaxonomy : Obligations.ErrorCodesOfTheTaxonomy :=
  ⟨rfl, rfl, rfl, rfl, rfl, rfl, fun _ _ => rfl, fun _ _ => BlockError.eq_of_code_eq⟩

theorem need_of_none {α : Type} {r : Register} {v : Option α} (hv : v = none) (k : α → StepResult) :
    need r v k = .fault (.noValue r) := by
  rw [hv, need_none]

/-- Settles O45: along each operation's chain of reads, the values that are there and then the first that is not. -/
theorem readingNoValueIsAFault : Obligations.ReadingNoValueIsAFault := by
  intro s
  refine ⟨fun hf => ⟨need_of_none hf _, need_of_none hf _, need_of_none hf _, need_of_none hf _, need_of_none hf _,
      need_of_none hf _, need_of_none hf _⟩, fun f hf hl => ?l, fun f len hf hl hlong hct => ?appendCt,
    fun hct => ⟨need_of_none hct _, need_of_none hct _, need_of_none hct _, need_of_none hct _, need_of_none hct _⟩,
    fun hlenf => need_of_none hlenf _, fun v hlenf hoff => (need_of_some hlenf _).trans (need_of_none hoff _),
    fun v h hlenf hoff hct => (need_of_some hlenf _).trans <| (need_of_some hoff _).trans (need_of_none hct _),
    fun hoff => ⟨need_of_none hoff _, need_of_none hoff _⟩,
    fun h hoff hct =>
      ⟨(need_of_some hoff _).trans (need_of_none hct _), (need_of_some hoff _).trans (need_of_none hct _)⟩,
    fun htitle => ⟨need_of_none htitle _, need_of_none htitle _⟩,
    fun title htitle hctr =>
      ⟨(need_of_some htitle _).trans (need_of_none hctr _), (need_of_some htitle _).trans (need_of_none hctr _)⟩,
    fun hiv => need_of_none hiv _, fun iv hiv hoff => (need_of_some hiv _).trans (need_of_none hoff _),
    fun iv h hiv hoff hlen => (need_of_some hiv _).trans <| (need_of_some hoff _).trans (need_of_none hlen _),
    fun iv h len hiv hoff hlen hct =>
      (need_of_some hiv _).trans <| (need_of_some hoff _).trans <| (need_of_some hlen _).trans (need_of_none hct _),
    fun hlen => need_of_none hlen _,
    fun len hlen hlong hpt =>
      (need_of_some hlen _).trans <| (if_neg (Nat.not_lt.2 hlong)).trans (need_of_none hpt _),
    fun len pt hlen hlong hpt htag hcount =>
      (exec_dxChkpt_of_read hlen hlong hpt htag hcount).trans (if_pos ⟨rfl, rfl⟩),
    fun title ctr htitle hctr hlen =>
      (need_of_some htitle _).trans <| (need_of_some hctr _).trans (need_of_none hlen _),
    fun title ctr len htitle hctr hlen hoff =>
      (need_of_some htitle _).trans <| (need_of_some hctr _).trans <| (need_of_some hlen _).trans (need_of_none hoff _),
    fun title ctr len h htitle hctr hlen hoff hsec =>
      (need_of_some htitle _).trans <| (need_of_some hctr _).trans <| (need_of_some hlen _).trans <|
        (need_of_some hoff _).trans (need_of_none hsec _),
    fun title ctr len h sec htitle hctr hlen hoff hsec hpt =>
      (need_of_some htitle _).trans <| (need_of_some hctr _).trans <| (need_of_some hlen _).trans <|
        (need_of_some hoff _).trans <| (need_of_some hsec _).trans (need_of_none hpt _)⟩
  case l =>
    exact ⟨(need_of_some hf _).trans (need_of_none hl _), (need_of_some hf _).trans (need_of_none hl _),
      (need_of_some hf _).trans (need_of_none hl _), (need_of_some hf _).trans (need_of_none hl _)⟩
  case appendCt =>
    exact (need_of_some hf _).trans <| (need_of_some hl _).trans <|
      (if_neg (Nat.not_lt.2 hlong)).trans (need_of_none hct _)

/-- Settles O47: nothing is constructed, pushed or emitted, and nothing ephemeral holds a value. -/
theorem resetHasTheInvariant : Obligations.ResetHasTheInvariant :=
  ⟨rfl, trivial, fun _ => ⟨rfl, rfl, rfl, rfl⟩, rfl, rfl, rfl, rfl, rfl, rfl, rfl, rfl, rfl, rfl, rfl, rfl⟩

end Sys2Proof.Machine
end

section
/-! What an operation of an attempt can do (R40, R41, R165): it leaves what the host can see, or it ends the attempt by
one of the two terminal actions. And the rows of the control-transfer table, by the state that stands at them. -/

namespace Sys2Proof.Machine

/-! ## What the host sees during an attempt -/

/-- The part of the state that only the host's transactions and the end of an attempt write. -/
def State.hostView (s : State) : Memory × TerminalOutcome × List ByteString × List Event :=
  (s.raw, s.outcome, s.pending, s.events)

/-- `t` comes from `s` inside an attempt, or by one of its two ends. -/
def continuesOrEnds (s t : State) : Prop :=
  t.hostView = s.hostView ∨ (∃ e info, t = s.raise e info) ∨ ∃ h p, t = s.succeed h p

section
variable (s : State)

theorem continuesOrEnds_raise (e : BlockError) (info : ErrorInfo) : continuesOrEnds s (s.raise e info) :=
  .inr (.inl ⟨e, info, rfl⟩)

/-- A check whose error ends the attempt. -/
theorem AnswersOnly.attempt_check {s : State} {bad : Prop} [Decidable bad] {e : BlockError} {info : ErrorInfo}
    {r : StepResult} (hgood : AnswersOnly (continuesOrEnds s) r) :
    AnswersOnly (continuesOrEnds s) (if bad then Machine.abort s e info else r) :=
  .check (continuesOrEnds_raise s e info) fun _ => hgood

/-- The same for a check that names what it accepts. -/
theorem AnswersOnly.attempt_accept {s : State} {good : Prop} [Decidable good] {e : BlockError} {info : ErrorInfo}
    {r : StepResult} (hgood : AnswersOnly (continuesOrEnds s) r) :
    AnswersOnly (continuesOrEnds s) (if good then r else Machine.abort s e info) :=
  .ite (fun _ => hgood) fun _ => .abort (continuesOrEnds_raise s e info)

/-- An operation that completes inside the attempt. -/
theorem AnswersOnly.attempt_next {s t : State} (h : t.hostView = s.hostView) :
    AnswersOnly (continuesOrEnds s) (.next t) := .next (.inl h)

theorem successAction_continuesOrEnds : AnswersOnly (continuesOrEnds s) (successAction s) := by
  intro t ht
  obtain ⟨title, ctr, len, off, sec, pt, -, -, -, -, -, -, rfl⟩ := successAction_eq_next ht
  exact .inr (.inr ⟨_, _, rfl⟩)

theorem execDxGcm_continuesOrEnds : AnswersOnly (continuesOrEnds s) (execDxGcm s) := by
  refine .need fun iv _ => .need fun _ _ => .need fun _ _ => .need fun _ _ => .memRead fun data _ => ?_
  cases gcm s.params.gcm s.key iv [] data with
  | authFail => exact .abort (continuesOrEnds_raise ..)
  | ok p => exact .attempt_next rfl

/-- R40, R41: every operation that is no host transaction. -/
theorem exec_continuesOrEnds {i : Instr} (hinternal : i.isHostTransaction = false) :
    AnswersOnly (continuesOrEnds s) (exec i s) := by
  cases i with
  | construct key profile => cases hinternal
  | push b => cases hinternal
  | trigger => cases hinternal
  | faInit => exact .attempt_next rfl
  | faChkstart =>
    exact .need fun _ _ => .attempt_check <| .memReadByte fun _ _ => .memReadByte fun _ _ =>
      .attempt_check <| .attempt_next rfl
  | faChklen =>
    exact .need fun _ _ => .memReadByte fun _ _ => .memReadByte fun _ _ => .attempt_check <| .attempt_next rfl
  | faChksize =>
    exact .need fun _ _ => .memReadByte fun _ _ => .attempt_check <| .attempt_check <| .attempt_next rfl
  | faChkstop => exact .need fun _ _ => .need fun _ _ => .memReadByte fun _ _ => .attempt_check <| .attempt_next rfl
  | faChksum =>
    exact .need fun _ _ => .need fun _ _ => .memRead fun _ _ => .memReadByte fun _ _ =>
      .attempt_check <| .attempt_next rfl
  | faAppend =>
    exact .need fun _ _ => .need fun _ _ => .attempt_check <| .need fun _ _ => .memRead fun _ _ => .attempt_next rfl
  | faAdvance => exact .need fun _ _ => .need fun _ _ => .attempt_next rfl
  | shChkmin => exact .need fun _ _ => .attempt_check <| .attempt_next rfl
  | shChktag => exact .need fun _ _ => .memReadByte fun _ _ => .attempt_check <| .attempt_next rfl
  | shChkstl => exact .need fun _ _ => .memReadByte fun _ _ => .attempt_check <| .attempt_next rfl
  | shLenGen =>
    exact .need fun _ _ => .memReadByte fun _ _ => .ite
      (fun _ => .memReadByte fun _ _ => .memReadByte fun _ _ => .attempt_next rfl) (fun _ => .attempt_next rfl)
  | shLenVq =>
    exact .need fun _ _ => .memReadByte fun _ _ => .memReadByte fun _ _ => .memReadByte fun _ _ =>
      .attempt_accept <| .attempt_next rfl
  | shCons =>
    exact .need fun _ _ => .need fun _ _ => .need fun _ _ => .attempt_check <| .attempt_check <| .attempt_next rfl
  | shChksec => exact .need fun _ _ => .need fun _ _ => .memReadByte fun _ _ => .attempt_accept <| .attempt_next rfl
  | shLatch => exact .need fun _ _ => .need fun _ _ => .memReadVec fun _ _ => .memReadVec fun _ _ => .attempt_next rfl
  | dxIv => exact .need fun _ _ => .need fun _ _ => .attempt_next rfl
  | dxGcm => exact execDxGcm_continuesOrEnds s
  | dxChkpt =>
    exact .need fun _ _ => .attempt_check <| .need fun _ _ => .memReadByte fun _ _ => .memReadByte fun _ _ =>
      .attempt_accept <| successAction_continuesOrEnds s
  | handoff => exact successAction_continuesOrEnds s

end

/-! ## The step -/

section
variable {s t : State}

/-- The sequencer runs no host transaction during an attempt. -/
theorem sequencedOperation_internal {ph : Phase} {profile : Profile} {i : Instr}
    (h : sequencedOperation ph profile = some i) : i.isHostTransaction = false := by
  cases ph with
  | idle => cases h
  | shLen => cases profile <;> (cases h; rfl)
  | _ => cases h; rfl

theorem exists_sequencedOperation (hphase : s.phase ≠ .idle) : ∃ i, sequencedOperation s.phase s.profile = some i :=
  Option.ne_none_iff_exists'.1 fun hnone => hphase (sequencedOperation_eq_none.1 hnone)

theorem step_continuesOrEnds (hphase : s.phase ≠ .idle) : AnswersOnly (continuesOrEnds s) (step s) := by
  obtain ⟨i, hi⟩ := exists_sequencedOperation hphase
  rw [step_of_sequenced hi]
  exact exec_continuesOrEnds s (sequencedOperation_internal hi)

/-- A host transaction emits nothing, and in a constructed block it leaves OUTCOME as it is. -/
theorem exec_hostTransaction_events {i : Instr} (hhost : i.isHostTransaction = true) :
    AnswersOnly (fun t => t.events = s.events ∧ (s.constructed = true → t.outcome = s.outcome)) (exec i s) := by
  cases i with
  | construct key profile =>
    change AnswersOnly _ (execConstruct key profile s)
    unfold execConstruct
    cases toVector? 16 key with
    | none => exact .refused _
    | some k => exact .ite (fun _ => .refused _) fun hnew => .next ⟨rfl, fun hconstructed => absurd hconstructed hnew⟩
  | push b =>
    exact .ite (fun _ => .refused _) fun _ => .ite (fun _ => .refused _) fun _ => .ite (fun _ => .refused _) fun _ =>
      .next ⟨rfl, fun _ => rfl⟩
  | trigger =>
    exact .ite (fun _ => .refused _) fun _ => .ite (fun _ => .refused _) fun _ =>
      .ite (fun _ => .next ⟨rfl, fun _ => rfl⟩) fun _ => .next ⟨rfl, fun _ => rfl⟩
  | _ => cases hhost

theorem step_events_of_idle (hidle : s.phase = .idle) :
    AnswersOnly (fun t => t.events = s.events ∧ (s.constructed = true → t.outcome = s.outcome)) (step s) := by
  intro t hstep
  obtain ⟨i, u, hrun, hexec⟩ | ⟨-, rfl⟩ := step_eq_next hstep
  · obtain ⟨hhost, rest, rfl⟩ := selectOperation_idle_run hidle hrun
    exact exec_hostTransaction_events (s := { s with pending := rest }) hhost t hexec
  · exact ⟨rfl, fun _ => rfl⟩

/-- Settles O56: an event comes from one of the two ends of an attempt alone, each with its OUTCOME. -/
theorem eventsOnlyAtTheEndOfAnAttempt : Obligations.EventsOnlyAtTheEndOfAnAttempt := by
  intro s t hconstructed hstep
  by_cases hidle : s.phase = .idle
  case pos =>
    obtain ⟨hevents, houtcome⟩ := step_events_of_idle hidle t hstep
    exact .inl ⟨hevents, houtcome hconstructed⟩
  case neg =>
    obtain hview | ⟨e, info, rfl⟩ | ⟨h, p, rfl⟩ := step_continuesOrEnds hidle t hstep
    · simp only [State.hostView, Prod.mk.injEq] at hview
      obtain ⟨-, houtcome, -, hevents⟩ := hview
      exact .inl ⟨hevents, houtcome⟩
    · exact .inr ⟨hidle, rfl, .inr ⟨e, info, rfl, rfl⟩⟩
    · exact .inr ⟨hidle, rfl, .inl ⟨h, p, rfl, rfl⟩⟩

/-- R160, R218: no state answers CONSTRUCT twice, whatever the key. -/
theorem exec_construct_ne_next (hconstructed : s.constructed = true) (key : ByteString) (profile : Profile)
    (t : State) : exec (.construct key profile) s ≠ .next t := by
  by_cases hlen : key.length = 16
  · rw [exec_construct_again hlen profile hconstructed]
    nofun
  · rw [exec_construct_of_length_ne hlen profile]
    nofun

/-- Settles O57: the three refusals, and the two ways an attempt's step can leave what the host sees. -/
theorem hostIsExcludedDuringAnAttempt : Obligations.HostIsExcludedDuringAnAttempt := by
  refine fun s hconstructed hbusy => ⟨exec_push_of_busy hconstructed hbusy, exec_trigger_of_busy hconstructed hbusy,
    exec_construct_ne_next hconstructed, fun t hstep => ?_⟩
  obtain hview | ⟨e, info, rfl⟩ | ⟨h, p, rfl⟩ := step_continuesOrEnds hbusy t hstep
  · simp only [State.hostView, Prod.mk.injEq] at hview
    obtain ⟨hraw, -, hpending, -⟩ := hview
    exact ⟨hpending, .inl hraw⟩
  · exact ⟨rfl, .inr ⟨rfl, rfl⟩⟩
  · exact ⟨rfl, .inr ⟨rfl, rfl⟩⟩

/-! ## The table of R165 by state -/

/-- The PHASEs that the operation at `s` can leave when it completes inside the attempt. -/
def State.successors (s : State) : List Phase :=
  match s.phase with
  | .idle | .dxChkpt => []
  | .faChkstart => [.faChklen]
  | .faChklen => [.faChksize]
  | .faChksize => [.faChkstop]
  | .faChkstop => [if s.params.checksumVerify = true then .faChksum else .faAppend]
  | .faChksum => [.faAppend]
  | .faAppend => [.faAdvance]
  | .faAdvance => [.shChkmin, .faChkstart]
  | .shChkmin => [.shChktag]
  | .shChktag => [.shChkstl]
  | .shChkstl => [.shLen]
  | .shLen => [.shCons]
  | .shCons => [.shChksec]
  | .shChksec => [.shLatch]
  | .shLatch => [.dxIv]
  | .dxIv => [.dxGcm]
  | .dxGcm => [.dxChkpt]

/-- The errors that the operation at `s` can raise. -/
def State.possibleErrors (s : State) : List BlockError :=
  match s.phase with
  | .idle | .faAdvance | .shLatch | .dxIv => []
  | .faChkstart => [.framing .truncated, .framing .badStartMarker]
  | .faChklen => [.framing .lengthMismatch]
  | .faChksize => [.framing .truncated]
  | .faChkstop => [.framing .badStopMarker]
  | .faChksum => [.framing .badChecksum]
  | .faAppend => [.framing .truncated]
  | .shChkmin => [.header .tooShort]
  | .shChktag => [.header .unsupportedCipher]
  | .shChkstl => [.header .unsupportedTitleLength]
  | .shLen =>
    match s.profile with
    | .generic => []
    | .vendorQuirk => [.header .malformedLength]
  | .shCons => [.header .lengthInconsistent]
  | .shChksec => [.header .unsupportedSecurityByte]
  | .dxGcm => [.decrypt .authenticationFailed]
  | .dxChkpt => [.decrypt .invalidPlaintext]

/-- A step of an attempt completes at a successor, raises a possible error, or is the success action. -/
def followsRow (s t : State) : Prop :=
  (t.phase ∈ s.successors ∧ t.events = s.events) ∨ (∃ e ∈ s.possibleErrors, ∃ info, t = s.raise e info) ∨
    ∃ h p, t = s.succeed h p

theorem followsRow_of_completesOrRaises {ph : Phase} {errors : List BlockError}
    (h : completesOrRaises s t ph errors) (hph : ph ∈ s.successors) (herrors : errors = s.possibleErrors) :
    followsRow s t := by
  subst herrors
  obtain ⟨hphase, -, hevents⟩ | hraise := h
  · exact .inl ⟨hphase ▸ hph, hevents⟩
  · exact .inr (.inl hraise)

theorem AnswersOnly.imp {P Q : State → Prop} {r : StepResult} (h : AnswersOnly P r) (hPQ : ∀ t, P t → Q t) :
    AnswersOnly Q r := fun t ht => hPQ t (h t ht)

/-- A row of the table with one successor. -/
theorem step_followsRow_of_row {i : Instr} {ph next : Phase} {errors : List BlockError} (hphase : s.phase = ph)
    (hi : sequencedOperation ph s.profile = some i) (hrow : AnswersOnly (completesOrRaises s · next errors) (exec i s))
    (hnext : next ∈ s.successors := by simp [State.successors, *])
    (herrors : errors = s.possibleErrors := by simp [State.possibleErrors, *]) :
    AnswersOnly (followsRow s) (step s) := by
  rw [step_of_phase hphase hi]
  exact hrow.imp fun t h => followsRow_of_completesOrRaises h hnext herrors

/-- R165: the rows of the table, together. -/
theorem step_followsRow (hphase : s.phase ≠ .idle) : AnswersOnly (followsRow s) (step s) := by
  cases hp : s.phase with
  | idle => exact absurd hp hphase
  | faChkstart =>
    exact step_followsRow_of_row hp rfl (exec_faChkstart_row s)
  | faChklen =>
    exact step_followsRow_of_row hp rfl (exec_faChklen_row s)
  | faChksize =>
    exact step_followsRow_of_row hp rfl (exec_faChksize_row s)
  | faChkstop =>
    exact step_followsRow_of_row hp rfl (exec_faChkstop_row s)
  | faChksum =>
    exact step_followsRow_of_row hp rfl (exec_faChksum_row s)
  | faAppend =>
    exact step_followsRow_of_row hp rfl (exec_faAppend_row s)
  | faAdvance =>
    rw [step_of_phase hp rfl]
    refine (exec_faAdvance_row s).imp fun t ⟨f, _, hrow⟩ => followsRow_of_completesOrRaises hrow ?_ ?_
    · split <;> simp [State.successors, hp]
    · simp [State.possibleErrors, hp]
  | shChkmin =>
    exact step_followsRow_of_row hp rfl (exec_shChkmin_row s)
  | shChktag =>
    exact step_followsRow_of_row hp rfl (exec_shChktag_row s)
  | shChkstl =>
    exact step_followsRow_of_row hp rfl (exec_shChkstl_row s)
  | shLen =>
    cases hprofile : s.profile with
    | generic =>
      exact step_followsRow_of_row hp (by rw [hprofile]; rfl) (exec_shLenGen_row s)
    | vendorQuirk =>
      exact step_followsRow_of_row hp (by rw [hprofile]; rfl) (exec_shLenVq_row s)
  | shCons =>
    exact step_followsRow_of_row hp rfl (exec_shCons_row s)
  | shChksec =>
    exact step_followsRow_of_row hp rfl (exec_shChksec_row s)
  | shLatch =>
    exact step_followsRow_of_row hp rfl (exec_shLatch_row s)
  | dxIv =>
    exact step_followsRow_of_row hp rfl (exec_dxIv_row s)
  | dxGcm =>
    exact step_followsRow_of_row hp rfl (exec_dxGcm_row s)
  | dxChkpt =>
    rw [step_of_phase hp rfl]
    refine (exec_dxChkpt_row s).imp fun t hrow => ?_
    obtain ⟨hhandoff, -⟩ | ⟨info, rfl⟩ := hrow
    · obtain ⟨title, ctr, len, off, sec, pt, -, -, -, -, -, -, rfl⟩ := successAction_eq_next hhandoff
      exact .inr (.inr ⟨_, _, rfl⟩)
    · exact .inr (.inl ⟨_, by simp [State.possibleErrors, hp], info, rfl⟩)

/-- No step comes to FA_CHKSUM but FA.CHKSTOP's, and that one only with CHECKSUM_VERIFY = 1 (R13). -/
theorem faChksum_notMem_successors (hverify : s.params.checksumVerify = false) : Phase.faChksum ∉ s.successors := by
  unfold State.successors
  split <;> simp [hverify]

/-- Settles O21: the 8-bit sum is the sum modulo 256; and with CHECKSUM_VERIFY = 0 no row leads to FA_CHKSUM. -/
theorem faChksumSumsTheFrame : Obligations.FaChksumSumsTheFrame := by
  refine ⟨fun s f len checksum body hf hl hbody hsum => ?sum, fun s t hverify _ hstep => ?never⟩
  case sum =>
    have htest : byteSum body ≠ checksum ↔ (body.map BitVec.toNat).sum % 256 ≠ checksum.toNat := by
      rw [← byteSum_toNat, ne_eq, ne_eq, BitVec.toNat_inj]
    rw [exec_faChksum_of_read hf hl hbody hsum]
    simp only [htest]
  case never =>
    by_cases hidle : s.phase = .idle
    · obtain hphase | ⟨hphase, -⟩ := step_phase_of_idle hidle t hstep <;> simp [hphase]
    · obtain ⟨hsuccessor, -⟩ | ⟨e, -, info, rfl⟩ | ⟨h, p, rfl⟩ := step_followsRow hidle t hstep
      · rintro hchksum
        exact faChksum_notMem_successors hverify (hchksum ▸ hsuccessor)
      · simp
      · simp

/-- The error of an Aborted event that a step emits is in the row of its PHASE. -/
theorem mem_possibleErrors_of_aborted {e : BlockError} (hstep : step s = .next t)
    (hevent : t.events = s.events ++ [.aborted e]) : e ∈ s.possibleErrors := by
  by_cases hidle : s.phase = .idle
  case pos =>
    rw [(step_events_of_idle hidle t hstep).1] at hevent
    simp at hevent
  case neg =>
    obtain ⟨-, hevents⟩ | ⟨e', he', info, rfl⟩ | ⟨h, p, rfl⟩ := step_followsRow hidle t hstep
    · rw [hevents] at hevent
      simp at hevent
    · rw [State.raise_events, List.append_cancel_left_eq, List.singleton_inj, Event.aborted.injEq] at hevent
      exact hevent ▸ he'
    · rw [State.succeed_events, List.append_cancel_left_eq, List.singleton_inj] at hevent
      cases hevent

theorem malformedLength_mem_possibleErrors (h : .header .malformedLength ∈ s.possibleErrors) :
    s.profile = .vendorQuirk := by
  cases hp : s.phase with
  | shLen =>
    cases hprofile : s.profile with
    | generic => simp [State.possibleErrors, hp, hprofile] at h
    | vendorQuirk => rfl
  | _ => simp [State.possibleErrors, hp] at h

theorem unsupportedSecurityByte_mem_possibleErrors (h : .header .unsupportedSecurityByte ∈ s.possibleErrors) :
    s.phase = .shChksec := by
  cases hp : s.phase with
  | shChksec => rfl
  | shLen => cases hprofile : s.profile <;> simp [State.possibleErrors, hp, hprofile] at h
  | _ => simp [State.possibleErrors, hp] at h

/-- R80: the byte that SH.CHKSEC examines under VendorQuirk is the last byte of the marker. -/
theorem exec_shChksec_of_vendorQuirk (hinv : s.Inv) (hphase : s.phase = .shChksec)
    (hprofile : s.profile = .vendorQuirk) :
    exec .shChksec s = .next { s with secByte := some 0x20, phase := .shLatch } := by
  obtain ⟨-, -, -, -, hphaseInv⟩ := hinv
  simp only [State.phaseInv, hphase] at hphaseInv
  obtain ⟨⟨ct, len, -, -, hct, -⟩, ⟨v, -, hoff, hvendor⟩, -, -⟩ := hphaseInv
  simp only [hprofile] at hvendor
  obtain ⟨hone, -, hbyte⟩ := hvendor
  have hread : Memory.read? ct (11 + v.hdrOff.toNat) = some 0x20 := by
    rw [show 11 + v.hdrOff.toNat = 12 by rw [hone]; rfl]
    simpa only [State.readByte?, State.buffer_ct, hct] using hbyte
  rw [exec_shChksec_of_read hoff hct hread, if_pos (.inl rfl)]

/-- Settles O58: the one row with MalformedLength is VendorQuirk's; in the one with UnsupportedSecurityByte the byte has
been checked already where the profile is VendorQuirk. -/
theorem errorsAProfileNeverRaises : Obligations.ErrorsAProfileNeverRaises := by
  refine fun s t hinv hstep => ⟨fun hgeneric hevent => ?malformed, fun hvendor hevent => ?security⟩
  case malformed =>
    have hvendor := malformedLength_mem_possibleErrors (mem_possibleErrors_of_aborted hstep hevent)
    rw [hgeneric] at hvendor
    cases hvendor
  case security =>
    have hphase := unsupportedSecurityByte_mem_possibleErrors (mem_possibleErrors_of_aborted hstep hevent)
    rw [step_of_phase hphase rfl, exec_shChksec_of_vendorQuirk hinv hphase hvendor] at hstep
    cases hstep
    simp at hevent

end

end Sys2Proof.Machine
end

section
/-! Runs of one operation on two states (R143, R150, R202). Where two states agree in all that the operation reads but
one register, its two answers agree but for that register; the relation is carried along the chain of reads and
checks. -/

namespace Sys2Proof.Machine

/-! ## One answer as the image of another -/

/-- An answer with `g` applied to its next state. -/
def mapNext (g : State → State) : StepResult → StepResult
  | .next t => .next (g t)
  | .fault f => .fault f
  | .refused r => .refused r

/-- `r'` is what `r` answers, seen through `g`. -/
def MirroredBy (g : State → State) (r r' : StepResult) : Prop := r' = mapNext g r

namespace MirroredBy

variable {α : Type} {g : State → State} {s s' t t' : State} {sp : Space} {m : Memory} {a n : Nat}

theorem next (h : t' = g t) : MirroredBy g (.next t) (.next t') := by
  rw [h]
  rfl

theorem fault (f : Fault) : MirroredBy g (.fault f) (.fault f) := rfl

theorem refused (r : Refusal) : MirroredBy g (.refused r) (.refused r) := rfl

theorem need {r : Register} {v : Option α} {k k' : α → StepResult}
    (h : ∀ x, v = some x → MirroredBy g (k x) (k' x)) : MirroredBy g (Machine.need r v k) (Machine.need r v k') := by
  cases v with
  | none => exact .fault _
  | some x => exact h x rfl

theorem memReadByte {k k' : Byte → StepResult} (h : ∀ b, Memory.read? m a = some b → MirroredBy g (k b) (k' b)) :
    MirroredBy g (Machine.memReadByte sp m a k) (Machine.memReadByte sp m a k') := by
  unfold Machine.memReadByte
  cases hb : Memory.read? m a with
  | none => exact .fault _
  | some b => exact h b hb

theorem memRead {k k' : ByteString → StepResult}
    (h : ∀ bs, Memory.read m a n = some bs → MirroredBy g (k bs) (k' bs)) :
    MirroredBy g (Machine.memRead sp m a n k) (Machine.memRead sp m a n k') := by
  unfold Machine.memRead
  cases hbs : Memory.read m a n with
  | none => exact .fault _
  | some bs => exact h bs hbs

theorem memReadVec {k k' : Vector Byte n → StepResult} (h : ∀ v, MirroredBy g (k v) (k' v)) :
    MirroredBy g (Machine.memReadVec sp m a n k) (Machine.memReadVec sp m a n k') := by
  unfold Machine.memReadVec
  cases (Memory.read m a n).bind (toVector? n) with
  | none => exact .fault _
  | some v => exact h v

theorem ite {c : Prop} [Decidable c] {r₁ r₁' r₂ r₂' : StepResult} (hpos : c → MirroredBy g r₁ r₁')
    (hneg : ¬ c → MirroredBy g r₂ r₂') : MirroredBy g (if c then r₁ else r₂) (if c then r₁' else r₂') := by
  by_cases hc : c
  · rw [if_pos hc, if_pos hc]
    exact hpos hc
  · rw [if_neg hc, if_neg hc]
    exact hneg hc

end MirroredBy

/-! ## KEY (R150, R202) -/

section
variable {s : State} {k : Vector Byte 16}

/-- A state with another KEY. -/
def State.withKey (k : Vector Byte 16) (s : State) : State := { s with key := k }

theorem withKeyIn_eq_mapNext (k : Vector Byte 16) (r : StepResult) : withKeyIn k r = mapNext (State.withKey k) r := by
  cases r <;> rfl

/-- The one call that DX.GCM makes answers the same under `k` as under KEY. -/
def sameGcmAnswer (s : State) (k : Vector Byte 16) : Prop :=
  ∀ (iv : Vector Byte 12) (h : BitVec 2) (len : BitVec 16) (ct : Memory) (data : ByteString),
    s.iv = some iv → s.hdrOff = some h → s.msgLen = some len → s.ct = some ct →
    Memory.read ct (16 + h.toNat) len.toNat = some data →
    gcm s.params.gcm k iv [] data = gcm s.params.gcm s.key iv [] data

theorem MirroredBy.key_next {t : State} : MirroredBy (State.withKey k) (.next t) (.next (t.withKey k)) := .next rfl

/-- A check: both ends of it carry the other KEY along. -/
theorem MirroredBy.key_check {bad : Prop} [Decidable bad] {e : BlockError} {info : ErrorInfo} {r r' : StepResult}
    (hgood : MirroredBy (State.withKey k) r r') :
    MirroredBy (State.withKey k) (if bad then Machine.abort s e info else r)
      (if bad then Machine.abort (s.withKey k) e info else r') :=
  .ite (fun _ => .next rfl) fun _ => hgood

theorem MirroredBy.key_accept {good : Prop} [Decidable good] {e : BlockError} {info : ErrorInfo} {r r' : StepResult}
    (hgood : MirroredBy (State.withKey k) r r') :
    MirroredBy (State.withKey k) (if good then r else Machine.abort s e info)
      (if good then r' else Machine.abort (s.withKey k) e info) :=
  .ite (fun _ => hgood) fun _ => .next rfl

/-- The success action hands out no KEY. -/
theorem successAction_withKey :
    MirroredBy (State.withKey k) (successAction s) (successAction (s.withKey k)) :=
  .need fun _ _ => .need fun _ _ => .need fun _ _ => .need fun _ _ => .need fun _ _ => .need fun _ _ => .next rfl

/-- R141: the one operation that reads KEY. -/
theorem execDxGcm_withKey (hgcm : sameGcmAnswer s k) :
    MirroredBy (State.withKey k) (execDxGcm s) (execDxGcm (s.withKey k)) := by
  refine .need fun iv hiv => .need fun h hoff => .need fun len hlen => .need fun ct hct => .memRead fun data hdata => ?_
  have hanswer : gcm (s.withKey k).params.gcm (s.withKey k).key iv [] data = gcm s.params.gcm s.key iv [] data :=
    hgcm iv h len ct data hiv hoff hlen hct hdata
  rw [hanswer]
  cases gcm s.params.gcm s.key iv [] data with
  | authFail => exact .next rfl
  | ok p => exact .next rfl

/-- CONSTRUCT, which would write KEY, is not admitted again. -/
theorem execConstruct_withKey (hconstructed : s.constructed = true) (key : ByteString) (profile : Profile) :
    MirroredBy (State.withKey k) (execConstruct key profile s) (execConstruct key profile (s.withKey k)) := by
  unfold execConstruct
  cases toVector? 16 key with
  | none => exact .refused _
  | some _ => exact .ite (fun _ => .refused _) fun hnew => absurd hconstructed hnew

/-- R150: each of the 23 operations, on a constructed block. -/
theorem exec_withKey {i : Instr} (hconstructed : s.constructed = true) (hgcm : i = .dxGcm → sameGcmAnswer s k) :
    MirroredBy (State.withKey k) (exec i s) (exec i (s.withKey k)) := by
  cases i with
  | construct key profile => exact execConstruct_withKey hconstructed key profile
  | push b =>
    exact .ite (fun _ => .refused _) fun _ => .ite (fun _ => .refused _) fun _ => .ite (fun _ => .refused _) fun _ =>
      .key_next
  | trigger =>
    exact .ite (fun _ => .refused _) fun _ => .ite (fun _ => .refused _) fun _ => .ite (fun _ => .key_next) fun _ =>
      .key_next
  | faInit => exact .key_next
  | faChkstart =>
    exact .need fun _ _ => .key_check <| .memReadByte fun _ _ => .memReadByte fun _ _ => .key_check .key_next
  | faChklen => exact .need fun _ _ => .memReadByte fun _ _ => .memReadByte fun _ _ => .key_check .key_next
  | faChksize => exact .need fun _ _ => .memReadByte fun _ _ => .key_check <| .key_check .key_next
  | faChkstop => exact .need fun _ _ => .need fun _ _ => .memReadByte fun _ _ => .key_check .key_next
  | faChksum =>
    exact .need fun _ _ => .need fun _ _ => .memRead fun _ _ => .memReadByte fun _ _ => .key_check .key_next
  | faAppend =>
    exact .need fun _ _ => .need fun _ _ => .key_check <| .need fun _ _ => .memRead fun _ _ => .key_next
  | faAdvance => exact .need fun _ _ => .need fun _ _ => .key_next
  | shChkmin => exact .need fun _ _ => .key_check .key_next
  | shChktag => exact .need fun _ _ => .memReadByte fun _ _ => .key_check .key_next
  | shChkstl => exact .need fun _ _ => .memReadByte fun _ _ => .key_check .key_next
  | shLenGen =>
    exact .need fun _ _ => .memReadByte fun _ _ =>
      .ite (fun _ => .memReadByte fun _ _ => .memReadByte fun _ _ => .key_next) fun _ => .key_next
  | shLenVq =>
    exact .need fun _ _ => .memReadByte fun _ _ => .memReadByte fun _ _ => .memReadByte fun _ _ => .key_accept .key_next
  | shCons => exact .need fun _ _ => .need fun _ _ => .need fun _ _ => .key_check <| .key_check .key_next
  | shChksec => exact .need fun _ _ => .need fun _ _ => .memReadByte fun _ _ => .key_accept .key_next
  | shLatch =>
    exact .need fun _ _ => .need fun _ _ => .memReadVec fun _ => .memReadVec fun _ => .key_next
  | dxIv => exact .need fun _ _ => .need fun _ _ => .key_next
  | dxGcm => exact execDxGcm_withKey (hgcm rfl)
  | dxChkpt =>
    exact .need fun _ _ => .key_check <| .need fun _ _ => .memReadByte fun _ _ => .memReadByte fun _ _ =>
      .key_accept successAction_withKey
  | handoff => exact successAction_withKey

/-- In IDLE the sequencer asks no KEY, and DX.GCM is no host transaction. -/
theorem step_withKey_of_idle (hconstructed : s.constructed = true) (hidle : s.phase = .idle) :
    MirroredBy (State.withKey k) (step s) (step (s.withKey k)) := by
  have hidle' : (s.withKey k).phase = .idle := hidle
  cases hpending : s.pending with
  | nil =>
    rw [step_of_idle_nil hidle hpending, step_of_idle_nil hidle' hpending]
    exact .key_next
  | cons line rest =>
    cases hdecode : decode line with
    | error e =>
      rw [step_of_idle_undecodable hidle hpending hdecode, step_of_idle_undecodable hidle' hpending hdecode]
      exact .refused _
    | ok i =>
      cases hhost : i.isHostTransaction with
      | false =>
        rw [step_of_idle_internal hidle hpending hdecode hhost, step_of_idle_internal hidle' hpending hdecode hhost]
        exact .refused _
      | true =>
        rw [step_of_idle_host hidle hpending hdecode hhost, step_of_idle_host hidle' hpending hdecode hhost]
        refine exec_withKey (s := { s with pending := rest }) hconstructed fun hdx => ?_
        rw [hdx] at hhost
        cases hhost

/-- DX.GCM is the operation of one PHASE. -/
theorem phase_of_sequenced_dxGcm {ph : Phase} {profile : Profile} (h : sequencedOperation ph profile = some .dxGcm) :
    ph = .dxGcm := by
  cases ph with
  | dxGcm => rfl
  | shLen => cases profile <;> cases h
  | _ => cases h

theorem step_withKey (hconstructed : s.constructed = true) (hgcm : s.phase = .dxGcm → sameGcmAnswer s k) :
    MirroredBy (State.withKey k) (step s) (step (s.withKey k)) := by
  cases hsequenced : sequencedOperation s.phase s.profile with
  | none => exact step_withKey_of_idle hconstructed (sequencedOperation_eq_none.1 hsequenced)
  | some i =>
    have hsequenced' : sequencedOperation (s.withKey k).phase (s.withKey k).profile = some i := hsequenced
    rw [step_of_sequenced hsequenced, step_of_sequenced hsequenced']
    refine exec_withKey hconstructed fun hdx => hgcm ?_
    exact phase_of_sequenced_dxGcm (hdx ▸ hsequenced)

end

/-- Settles O55: every operation carries the other KEY through its chain; DX.GCM alone reads it, in its one call. -/
theorem keyReachesOnlyThePrimitive : Obligations.KeyReachesOnlyThePrimitive := by
  intro s k hconstructed hgcm
  rw [withKeyIn_eq_mapNext]
  exact step_withKey hconstructed hgcm

/-! ## SEC_BYTE (R143) -/

section
variable {s t : State} {u v : Byte}

/-- A state with another value in SEC_BYTE. -/
def State.withSecByte (v : Byte) (s : State) : State := { s with secByte := some v }

theorem MirroredBy.eq_next {g : State → State} {r r' : StepResult} (h : MirroredBy g r r') (hr : r = .next t) :
    r' = .next (g t) := by
  rw [h, hr]
  rfl

theorem execDxIv_withSecByte : MirroredBy (State.withSecByte v) (execDxIv s) (execDxIv (s.withSecByte v)) :=
  .need fun _ _ => .need fun _ _ => .next rfl

/-- AuthFail drops SEC_BYTE with everything ephemeral; a plaintext leaves it. -/
theorem execDxGcm_withSecByte :
    MirroredBy (fun t => if t.phase = .dxChkpt then t.withSecByte v else t) (execDxGcm s)
      (execDxGcm (s.withSecByte v)) := by
  refine .need fun iv _ => .need fun _ _ => .need fun _ _ => .need fun _ _ => .memRead fun data _ => ?_
  have hanswer : gcm (s.withSecByte v).params.gcm (s.withSecByte v).key iv [] data =
      gcm s.params.gcm s.key iv [] data := rfl
  rw [hanswer]
  cases gcm s.params.gcm s.key iv [] data with
  | authFail => exact .next rfl
  | ok p => exact .next rfl

/-- The success action copies SEC_BYTE into the header of its event, and nowhere else. -/
theorem successAction_withSecByte (ht : successAction s = .next t) :
    ∃ ev, t.events = s.events ++ [ev] ∧
      successAction (s.withSecByte v) = .next { t with events := s.events ++ [withSecurityByte v ev] } := by
  obtain ⟨title, ctr, len, off, sec, pt, htitle, hctr, hlen, hoff, -, hpt, rfl⟩ := successAction_eq_next ht
  exact ⟨.plaintextReady ⟨title, ctr, len, off, sec⟩ (Memory.bytes pt) s.profile, rfl,
    exec_handoff_of_some (s := s.withSecByte v) htitle hctr hlen hoff rfl hpt⟩

theorem execDxChkpt_withSecByte (ht : execDxChkpt s = .next t) :
    ∃ ev, t.events = s.events ++ [ev] ∧
      execDxChkpt (s.withSecByte v) = .next { t with events := s.events ++ [withSecurityByte v ev] } := by
  obtain ⟨len, hlen, ht⟩ := need_eq_next ht
  by_cases hshort : len.toNat < 6
  case pos =>
    rw [if_pos hshort, abort_eq] at ht
    cases ht
    exact ⟨.aborted (.decrypt .invalidPlaintext), rfl, exec_dxChkpt_of_short (s := s.withSecByte v) hlen hshort⟩
  case neg =>
    rw [if_neg hshort] at ht
    obtain ⟨pt, hpt, ht⟩ := need_eq_next ht
    obtain ⟨tag, htag, ht⟩ := memReadByte_eq_next ht
    obtain ⟨count, hcount, ht⟩ := memReadByte_eq_next ht
    have hother :=
      exec_dxChkpt_of_read (s := s.withSecByte v) hlen (Nat.not_lt.1 hshort) hpt htag hcount
    simp only [plaintextAccepted_iff] at ht
    split at ht
    · next haccepted =>
      obtain ⟨ev, hevents, hsuccess⟩ := successAction_withSecByte (v := v) ht
      exact ⟨ev, hevents, (hother.trans (if_pos haccepted)).trans hsuccess⟩
    · next hwrong =>
      cases ht
      exact ⟨.aborted (.decrypt .invalidPlaintext), rfl, hother.trans (if_neg hwrong)⟩

end

/-- Settles O37: DX.IV and DX.GCM do not read SEC_BYTE; DX.CHKPT copies it into the event's header alone. -/
theorem securityByteChangesNothing : Obligations.SecurityByteChangesNothing := fun _ _ _ _ =>
  ⟨fun _ ht => execDxIv_withSecByte.eq_next ht, fun _ ht => execDxGcm_withSecByte.eq_next ht,
    fun _ ht => execDxChkpt_withSecByte ht⟩

/-- Settles O38: the contract of R145, for each of the three choices. -/
theorem gcmAnswerHasTheLengthOfData : Obligations.GcmAnswerHasTheLengthOfData := fun _ _ _ _ _ _ => gcm_ok_length

end Sys2Proof.Machine
end

section
/-! Reads inside a canonical buffer (R18, R56), in terms of the byte string that it holds. -/

namespace Sys2Proof.Machine

section
variable {m : Memory} (hwf : Memory.wf m = true) {a n : Nat}
include hwf

theorem Memory.read?_eq_some (ha : a < m.length) : Memory.read? m a = some ((Memory.bytes m).getD a 0) := by
  have ha' : a < (Memory.bytes m).length := by rwa [Memory.bytes_length]
  rw [Memory.read?_eq hwf, List.getD_eq_getElem?_getD, List.getElem?_eq_getElem ha', Option.getD_some]

theorem Memory.read_eq_some (h : a + n ≤ m.length) :
    Memory.read m a n = some (((Memory.bytes m).drop a).take n) := by
  obtain ⟨bs, rfl⟩ := Memory.exists_ofBytes hwf
  rw [Memory.ofBytes_length] at h
  rw [Memory.read_ofBytes, if_pos h, Memory.bytes_ofBytes]

end

/-- Bytes inside the string, as a register's value. -/
theorem bytesAt_toList {bs : ByteString} {a n : Nat} (h : a + n ≤ bs.length) :
    (bytesAt bs a n).toList = (bs.drop a).take n := by
  apply List.ext_getElem
  · rw [Vector.length_toList, List.length_take, List.length_drop]
    omega
  · intro i hi _
    rw [Vector.length_toList] at hi
    have hin : a + i < bs.length := by omega
    simp [bytesAt, List.getD_eq_getElem?_getD, hin]

theorem Memory.read_eq_bytesAt {m : Memory} (hwf : Memory.wf m = true) {a n : Nat} (h : a + n ≤ m.length) :
    Memory.read m a n = some (bytesAt (Memory.bytes m) a n).toList := by
  rw [Memory.read_eq_some hwf h, bytesAt_toList (by rwa [Memory.bytes_length])]

section
variable {bs : ByteString} {a n : Nat}

theorem getElem?_eq_some_getD (ha : a < bs.length) : bs[a]? = some (bs.getD a 0) := by
  simp [List.getD_eq_getElem?_getD, ha]

theorem Memory.read?_ofBytes_eq_getD (ha : a < bs.length) :
    Memory.read? (Memory.ofBytes bs) a = some (bs.getD a 0) := by
  rw [Memory.read?_ofBytes, getElem?_eq_some_getD ha]

theorem Memory.read_ofBytes_eq_bytesAt (h : a + n ≤ bs.length) :
    Memory.read (Memory.ofBytes bs) a n = some (bytesAt bs a n).toList := by
  rw [Memory.read_ofBytes, if_pos h, bytesAt_toList h]

end

end Sys2Proof.Machine
end

section
/-! The invariant (R21, R28, R66, R172). Both ends of an attempt restore it whatever they end; every other step of an
attempt leaves all but PHASE's own part of it alone, so each PHASE needs only that its operation finds what it reads and
leaves what the next PHASE asks. -/

namespace Sys2Proof.Machine

section
variable {s t : State}

/-! ## The parts that do not depend on PHASE -/

theorem State.Inv.raw_wf (hinv : s.Inv) : Memory.wf s.raw = true := hinv.1

theorem State.Inv.phaseInv (hinv : s.Inv) : s.phaseInv := hinv.2.2.2.2

theorem State.withinCapacity_iff : s.withinCapacity ↔ ∀ n, bufferLimit s.params = some n → s.rawLen ≤ n := by
  unfold State.withinCapacity
  cases bufferLimit s.params with
  | none => exact ⟨fun _ _ h => (nomatch h), fun _ => trivial⟩
  | some n => simp

/-- An attempt runs only in a block that exists. -/
theorem State.Inv.constructed_of_attempt (hinv : s.Inv) (hattempt : s.phase ≠ .idle) : s.constructed = true := by
  obtain ⟨-, -, hempty, -, -⟩ := hinv
  cases hconstructed : s.constructed with
  | true => rfl
  | false => exact absurd (hempty hconstructed).1 hattempt

/-- Inside an attempt only PHASE's part has to be shown again. -/
theorem State.Inv.of_attempt (hinv : s.Inv) (hattempt : s.phase ≠ .idle) (hview : t.hostView = s.hostView)
    (hconfiguration : t.configuration = s.configuration) (hphase : t.phaseInv) : t.Inv := by
  have hconstructed := hinv.constructed_of_attempt hattempt
  obtain ⟨hraw, hcapacity, -, houtcome, -⟩ := hinv
  obtain ⟨-, -, hparams, hconstructed'⟩ := State.configuration_eq_iff.1 hconfiguration
  simp only [State.hostView, Prod.mk.injEq] at hview
  obtain ⟨hraweq, houtcomeeq, -, hevents⟩ := hview
  refine ⟨hraweq ▸ hraw, ?_, fun hnew => ?_, ?_, hphase⟩
  · simpa only [State.withinCapacity, State.rawLen, hparams, hraweq] using hcapacity
  · rw [hconstructed', hconstructed] at hnew
    cases hnew
  · simpa only [State.outcomeMatchesEvents, hevents, houtcomeeq] using houtcome

/-- The end of an attempt, with an event that OUTCOME agrees with. -/
theorem State.Inv.of_endAttempt (hconstructed : s.constructed = true) {o : TerminalOutcome} {ev : Event}
    (hmatch : (s.endAttempt o ev).outcomeMatchesEvents) : (s.endAttempt o ev).Inv := by
  refine ⟨rfl, State.withinCapacity_iff.2 fun _ _ => Nat.zero_le _, fun hnew => ?_, hmatch, rfl, rfl, rfl, rfl, rfl,
    rfl, rfl, rfl, rfl, rfl, rfl⟩
  rw [State.endAttempt_constructed, hconstructed] at hnew
  cases hnew

theorem State.Inv.of_raise (hconstructed : s.constructed = true) (e : BlockError) (info : ErrorInfo) :
    (s.raise e info).Inv :=
  .of_endAttempt hconstructed (by simp [State.outcomeMatchesEvents])

theorem State.Inv.of_succeed (hconstructed : s.constructed = true) (h : SecureHeader) (p : ByteString) :
    (s.succeed h p).Inv :=
  .of_endAttempt hconstructed (by simp [State.outcomeMatchesEvents])

/-- From SH.CHKTAG on CT holds at least the 20 bytes that SH.CHKMIN has asked for. -/
theorem State.assembled.ciphertext (h : s.assembled minCtLen) :
    ∃ ct, s.ct = some ct ∧ Memory.wf ct = true ∧ 20 ≤ ct.length := by
  obtain ⟨ct, -, -, -, hct, hwf, -, hlong, -⟩ := h
  exact ⟨ct, hct, hwf, hlong⟩

theorem State.lengthConsistent.offset (h : s.lengthConsistent) :
    ∃ off : BitVec 2, s.hdrOff = some off ∧ off.toNat < 4 := by
  obtain ⟨v, -, -, -, hoff, -⟩ := h
  exact ⟨v.hdrOff, hoff, v.hdrOff.isLt⟩

/-! ## Answers that keep the invariant -/

/-- An answer that is a next state with the invariant. -/
def KeepsInv (r : StepResult) : Prop := ∃ t, r = .next t ∧ t.Inv

theorem KeepsInv.next (h : t.Inv) : KeepsInv (.next t) := ⟨t, rfl, h⟩

theorem KeepsInv.ite {c : Prop} [Decidable c] {u : State} (hpos : c → t.Inv) (hneg : ¬ c → u.Inv) :
    KeepsInv (.next (if c then t else u)) := by
  by_cases hc : c
  · rw [if_pos hc]
    exact .next (hpos hc)
  · rw [if_neg hc]
    exact .next (hneg hc)

theorem KeepsInv.of_phase {ph : Phase} {i : Instr} (hphase : s.phase = ph)
    (hi : sequencedOperation ph s.profile = some i) (hexec : KeepsInv (exec i s)) : KeepsInv (step s) := by
  rwa [step_of_phase hphase hi]

end

/-! ## The operations of an attempt, one PHASE each -/

section
variable {s : State} (hinv : s.Inv) (hattempt : s.phase ≠ .idle)
include hinv hattempt

theorem State.Inv.raise (e : BlockError) (info : ErrorInfo) : (s.raise e info).Inv :=
  .of_raise (hinv.constructed_of_attempt hattempt) e info

theorem exec_faChkstart_keepsInv (hframe : s.inFrame 0) : KeepsInv (exec .faChkstart s) := by
  obtain ⟨f, ct, hf, hct, hctwf, hle, hlt, -, hnone⟩ := hframe
  by_cases hshort : s.rawLen - f < 4
  case pos =>
    rw [exec_faChkstart_of_short hf hshort]
    exact .next (hinv.raise hattempt _ _)
  case neg =>
    rw [State.rawLen_eq] at hshort
    have h0 := Memory.read?_eq_some hinv.raw_wf (a := f) (by omega)
    have h3 := Memory.read?_eq_some hinv.raw_wf (a := f + 3) (by omega)
    rw [exec_faChkstart_of_headerIntro hf (Nat.not_lt.1 hshort) h0 h3]
    refine .ite (fun _ => hinv.of_attempt hattempt rfl rfl ?_) fun _ => hinv.raise hattempt _ _
    exact ⟨f, ct, hf, hct, hctwf, hle, hlt, (by change f + 4 ≤ s.raw.length; omega), hnone⟩

theorem exec_faChklen_keepsInv (hframe : s.inFrame 4) : KeepsInv (exec .faChklen s) := by
  have hnext := hframe
  obtain ⟨f, ct, hf, -, -, -, -, hsize, -⟩ := hframe
  rw [State.rawLen_eq] at hsize
  have h1 := Memory.read?_eq_some hinv.raw_wf (a := f + 1) (by omega)
  have h2 := Memory.read?_eq_some hinv.raw_wf (a := f + 2) (by omega)
  rw [exec_faChklen_of_read hf h1 h2]
  exact .ite (fun _ => hinv.of_attempt hattempt rfl rfl hnext) fun _ => hinv.raise hattempt _ _

theorem exec_faChksize_keepsInv (hframe : s.inFrame 4) : KeepsInv (exec .faChksize s) := by
  obtain ⟨f, ct, hf, hct, hctwf, hle, hlt, hsize, hnone⟩ := hframe
  rw [State.rawLen_eq] at hsize
  have h1 := Memory.read?_eq_some hinv.raw_wf (a := f + 1) (by omega)
  rw [exec_faChksize_of_read hf h1]
  refine .ite (fun _ => hinv.raise hattempt _ _) fun _ => ?_
  split
  · exact hinv.raise hattempt _ _
  · next hlong =>
    refine hinv.of_attempt hattempt rfl rfl ⟨_, rfl, f, ct, hf, hct, hctwf, hle, hlt, ?_, hnone⟩
    rw [frameSize_eq]
    change f + (_ + 6) ≤ s.raw.length
    rw [State.rawLen_eq] at hlong
    omega

theorem exec_faChkstop_keepsInv (hframe : s.inWholeFrame) : KeepsInv (exec .faChkstop s) := by
  have hnext := hframe
  obtain ⟨len, hl, f, ct, hf, -, -, -, -, hsize, -⟩ := hframe
  rw [State.rawLen_eq, frameSize_eq] at hsize
  have hstop := Memory.read?_eq_some hinv.raw_wf (a := f + len.toNat + 5) (by omega)
  rw [exec_faChkstop_of_read hf hl hstop]
  refine .ite (fun _ => hinv.of_attempt hattempt rfl rfl ?_) fun _ => hinv.raise hattempt _ _
  cases hverify : s.params.checksumVerify with
  | true => exact ⟨hnext, hverify⟩
  | false => exact hnext

theorem exec_faChksum_keepsInv (hframe : s.inWholeFrame) : KeepsInv (exec .faChksum s) := by
  have hnext := hframe
  obtain ⟨len, hl, f, ct, hf, -, -, -, -, hsize, -⟩ := hframe
  rw [State.rawLen_eq, frameSize_eq] at hsize
  have hbody := Memory.read_eq_some hinv.raw_wf (a := f + 4) (n := len.toNat) (by omega)
  have hsum := Memory.read?_eq_some hinv.raw_wf (a := f + 4 + len.toNat) (by omega)
  rw [exec_faChksum_of_read hf hl hbody hsum]
  exact .ite (fun _ => hinv.raise hattempt _ _) fun _ => hinv.of_attempt hattempt rfl rfl hnext

theorem exec_faAppend_keepsInv (hframe : s.inWholeFrame) : KeepsInv (exec .faAppend s) := by
  obtain ⟨len, hl, f, ct, hf, hct, hctwf, hle, -, hsize, hnone⟩ := hframe
  rw [State.rawLen_eq, frameSize_eq] at hsize
  by_cases hshort : len.toNat < s.params.nCi.val
  case pos =>
    rw [exec_faAppend_of_short hf hl hshort]
    exact .next (hinv.raise hattempt _ _)
  case neg =>
    have hlong := Nat.not_lt.1 hshort
    have hslice := Memory.read_eq_some hinv.raw_wf (a := f + 4 + s.params.nCi.val)
      (n := len.toNat - s.params.nCi.val) (by omega)
    rw [exec_faAppend_of_read hf hl hlong hct hslice]
    refine .next (hinv.of_attempt hattempt rfl rfl ⟨f, len, _, hf, hl, rfl, Memory.wf_append hctwf _, ?_, ?_, hnone⟩)
    · rw [Memory.append_length, Memory.read_length hslice]
      omega
    · rw [frameSize_eq]
      exact hsize

/-- The loop's edge: the new FRAME_OFF is inside RAW, or it is RAWLEN. -/
theorem exec_faAdvance_keepsInv (hframe : s.afterAppend) : KeepsInv (exec .faAdvance s) := by
  obtain ⟨f, len, ct, hf, hl, hct, hctwf, hle, hsize, hnone⟩ := hframe
  rw [exec_faAdvance_of_some hf hl]
  refine .next (hinv.of_attempt hattempt rfl rfl ?_)
  have hadvance := frameSize_eq len
  by_cases hend : f + frameSize len ≥ s.rawLen
  case pos =>
    simp only [State.phaseInv, if_pos hend]
    refine ⟨⟨ct, len, ?_, hl, hct, hctwf, ?_, Nat.zero_le _, ?_⟩, hnone⟩
    · change some (f + frameSize len) = some s.rawLen
      rw [Nat.le_antisymm hsize hend]
    · change ct.length ≤ s.rawLen
      omega
    · change 0 < s.rawLen
      omega
  case neg =>
    simp only [State.phaseInv, if_neg hend]
    refine ⟨f + frameSize len, ct, rfl, hct, hctwf, ?_, Nat.not_le.1 hend, ?_, hnone⟩
    · omega
    · exact Nat.le_of_not_le hend

theorem exec_shChkmin_keepsInv (hassembled : s.assembled 0) (hnone : s.noneFromLenf) : KeepsInv (exec .shChkmin s) := by
  obtain ⟨ct, len, hf, hl, hct, hctwf, hle, -, hpos⟩ := hassembled
  rw [shChkminRequiresTwentyBytes s ct hct]
  exact .ite (fun _ => hinv.raise hattempt _ _) fun hlong =>
    hinv.of_attempt hattempt rfl rfl ⟨⟨ct, len, hf, hl, hct, hctwf, hle, Nat.not_lt.1 hlong, hpos⟩, hnone⟩

section
variable (hassembled : s.assembled minCtLen)
include hassembled

theorem exec_shChktag_keepsInv (hnone : s.noneFromLenf) : KeepsInv (exec .shChktag s) := by
  obtain ⟨ct, hct, hctwf, hlong⟩ := hassembled.ciphertext
  rw [shChktagChecksCipherTag s ct _ hct (Memory.read?_eq_some hctwf (by omega))]
  exact .ite (fun _ => hinv.raise hattempt _ _) fun _ => hinv.of_attempt hattempt rfl rfl ⟨hassembled, hnone⟩

theorem exec_shChkstl_keepsInv (hnone : s.noneFromLenf) : KeepsInv (exec .shChkstl s) := by
  obtain ⟨ct, hct, hctwf, hlong⟩ := hassembled.ciphertext
  rw [shChkstlChecksTitleLength s ct _ hct (Memory.read?_eq_some hctwf (by omega))]
  exact .ite (fun _ => hinv.raise hattempt _ _) fun _ => hinv.of_attempt hattempt rfl rfl ⟨hassembled, hnone⟩

/-- Either form leaves an offset of 0 or 2. -/
theorem exec_shLenGen_keepsInv (hprofile : s.profile = .generic) (hnone : s.noneFromLenf) :
    KeepsInv (exec .shLenGen s) := by
  have hlatched {v : LengthField} (hv : v.hdrOff = 0 ∨ v.hdrOff = 2) : (s.latchLength v).Inv := by
    refine hinv.of_attempt hattempt rfl rfl ⟨hassembled, ⟨v, rfl, rfl, ?_⟩, hnone.2.2⟩
    simpa only [State.latchLength_profile, hprofile] using hv
  obtain ⟨ct, hct, hctwf, hlong⟩ := hassembled.ciphertext
  have h10 := Memory.read?_eq_some hctwf (a := 10) (by omega)
  have h11 := Memory.read?_eq_some hctwf (a := 11) (by omega)
  have h12 := Memory.read?_eq_some hctwf (a := 12) (by omega)
  by_cases hmark : (Memory.bytes ct).getD 10 0 = twoByteLenMark
  case pos =>
    rw [exec_shLenGen_of_formG3 hct (hmark ▸ h10) h11 h12]
    exact .next (hlatched (.inr rfl))
  case neg =>
    rw [exec_shLenGen_of_formG1 hct h10 hmark]
    exact .next (hlatched (.inl rfl))

/-- The marker fixes LENF, HDR_OFF and the byte after it. -/
theorem exec_shLenVq_keepsInv (hprofile : s.profile = .vendorQuirk) (hnone : s.noneFromLenf) :
    KeepsInv (exec .shLenVq s) := by
  obtain ⟨ct, hct, hctwf, hlong⟩ := hassembled.ciphertext
  have h10 := Memory.read?_eq_some hctwf (a := 10) (by omega)
  have h11 := Memory.read?_eq_some hctwf (a := 11) (by omega)
  have h12 := Memory.read?_eq_some hctwf (a := 12) (by omega)
  rw [shLenVqAcceptsOnlyTheMarker s ct _ _ _ hct h10 h11 h12]
  refine .ite (fun ⟨_, _, hlast⟩ => ?_) fun _ => hinv.raise hattempt _ _
  refine hinv.of_attempt hattempt rfl rfl ⟨hassembled, ⟨⟨248, 1⟩, rfl, rfl, ?_⟩, hnone.2.2⟩
  simp only [hprofile, State.readByte?, State.buffer_ct, hct, h12, hlast, and_self]

theorem exec_shCons_keepsInv (hparsed : s.lengthParsed) (hnone : s.noneFromMsgLen) : KeepsInv (exec .shCons s) := by
  have hparsedNext := hparsed
  obtain ⟨ct, hct, -, -⟩ := hassembled.ciphertext
  obtain ⟨v, hlenf, hoff, -⟩ := hparsed
  rw [exec_shCons_of_some hlenf hoff hct]
  refine .ite (fun _ => hinv.raise hattempt _ _) fun hcorrection => ?_
  split
  · exact hinv.raise hattempt _ _
  · next hequal =>
    refine hinv.of_attempt hattempt rfl rfl
      ⟨hassembled, hparsedNext, ⟨v, _, ct, hlenf, hoff, rfl, hct, ?_, ?_⟩, hnone.2⟩
    · rw [messageLength_toNat]
      exact Nat.sub_add_cancel (Nat.not_lt.1 hcorrection)
    · rw [consistentLength_eq, messageLength_toNat]
      exact Decidable.not_not.1 hequal

section
variable (hparsed : s.lengthParsed) (hconsistent : s.lengthConsistent)
include hparsed hconsistent

theorem exec_shChksec_keepsInv (hnone : s.noneFromSec) : KeepsInv (exec .shChksec s) := by
  obtain ⟨ct, hct, hctwf, hlong⟩ := hassembled.ciphertext
  obtain ⟨off, hoff, hoffset⟩ := hconsistent.offset
  rw [exec_shChksec_of_read hoff hct (Memory.read?_eq_some hctwf (by omega))]
  refine .ite (fun haccepted => ?_) fun _ => hinv.raise hattempt _ _
  refine hinv.of_attempt hattempt rfl rfl ⟨hassembled, hparsed, hconsistent, ?_, hnone.2⟩
  exact haccepted.imp (congrArg some) (congrArg some)

section
variable (hsec : s.secByteLegal)
include hsec

theorem exec_shLatch_keepsInv (hnone : s.noneFromTitle) : KeepsInv (exec .shLatch s) := by
  obtain ⟨ct, hct, hctwf, hlong⟩ := hassembled.ciphertext
  obtain ⟨off, hoff, hoffset⟩ := hconsistent.offset
  rw [shLatchCopiesTitleAndCounter s _ ct _ _ hoff hct (Memory.read_eq_bytesAt hctwf (by omega))
    (Memory.read_eq_bytesAt hctwf (by omega))]
  exact .next (hinv.of_attempt hattempt rfl rfl ⟨hassembled, hparsed, hconsistent, hsec, ⟨_, _, rfl, rfl⟩, hnone.2.2⟩)

theorem exec_dxIv_keepsInv (htitle : s.titleLatched) (hnone : s.noneFromIv) : KeepsInv (exec .dxIv s) := by
  obtain ⟨title, ctr, htitle, hctr⟩ := htitle
  rw [exec_dxIv_of_some htitle hctr]
  exact .next (hinv.of_attempt hattempt rfl rfl
    ⟨hassembled, hparsed, hconsistent, hsec, ⟨title, ctr, htitle, hctr, rfl⟩, hnone.2⟩)

/-- The payload is inside CT, and the answer has its length. -/
theorem exec_dxGcm_keepsInv (hbuilt : s.ivBuilt) : KeepsInv (exec .dxGcm s) := by
  have hbuiltNext := hbuilt
  obtain ⟨ct, hct, hctwf, -⟩ := hassembled.ciphertext
  have hconsistentNext := hconsistent
  obtain ⟨v, len, ct', -, hoff, hlen, hct', -, hlength⟩ := hconsistent
  obtain rfl : ct = ct' := Option.some.inj (hct.symm.trans hct')
  obtain ⟨title, ctr, -, -, hiv⟩ := hbuilt
  rw [consistentLength_eq] at hlength
  have hdata := Memory.read_eq_some hctwf (a := 16 + v.hdrOff.toNat) (n := len.toNat) (Nat.le_of_eq hlength.symm)
  rw [exec_dxGcm_of_read hiv hoff hlen hct hdata]
  refine .next ?_
  cases hanswer : gcm s.params.gcm s.key (ivOf title ctr) [] _ with
  | authFail => exact hinv.raise hattempt _ _
  | ok p =>
    refine hinv.of_attempt hattempt rfl rfl ⟨hassembled, hparsed, hconsistentNext, hsec, hbuiltNext, _, len, rfl, hlen,
      Memory.wf_ofBytes p, ?_⟩
    rw [Memory.ofBytes_length, gcm_ok_length hanswer, Memory.read_length hdata]

end
end
end

theorem exec_dxChkpt_keepsInv (hconsistent : s.lengthConsistent) (hsec : s.secByteLegal) (hbuilt : s.ivBuilt)
    (hsized : s.plaintextSized) : KeepsInv (exec .dxChkpt s) := by
  obtain ⟨off, hoff, -⟩ := hconsistent.offset
  obtain ⟨title, ctr, htitle, hctr, -⟩ := hbuilt
  obtain ⟨pt, len, hpt, hlen, hptwf, hlength⟩ := hsized
  obtain ⟨sec, hsec⟩ : ∃ sec, s.secByte = some sec := hsec.elim (⟨_, ·⟩) (⟨_, ·⟩)
  by_cases hshort : len.toNat < 6
  case pos =>
    rw [exec_dxChkpt_of_short hlen hshort]
    exact .next (hinv.raise hattempt _ _)
  case neg =>
    have h0 := Memory.read?_eq_some hptwf (a := 0) (by omega)
    have h5 := Memory.read?_eq_some hptwf (a := 5) (by omega)
    rw [exec_dxChkpt_of_read hlen (Nat.not_lt.1 hshort) hpt h0 h5, exec_handoff_of_some htitle hctr hlen hoff hsec hpt,
      ← apply_ite Host.Outcome.next]
    exact .ite (fun _ => .of_succeed (hinv.constructed_of_attempt hattempt) _ _) fun _ => hinv.raise hattempt _ _

/-- R66: every step of an attempt answers a next state with the invariant. -/
theorem step_keepsInv_of_attempt : KeepsInv (step s) := by
  have hphaseInv := hinv.phaseInv
  cases hp : s.phase <;> simp only [State.phaseInv, hp] at hphaseInv
  case idle => exact absurd hp hattempt
  case faChkstart => exact .of_phase hp rfl (exec_faChkstart_keepsInv hinv hattempt hphaseInv)
  case faChklen => exact .of_phase hp rfl (exec_faChklen_keepsInv hinv hattempt hphaseInv)
  case faChksize => exact .of_phase hp rfl (exec_faChksize_keepsInv hinv hattempt hphaseInv)
  case faChkstop => exact .of_phase hp rfl (exec_faChkstop_keepsInv hinv hattempt hphaseInv)
  case faChksum => exact .of_phase hp rfl (exec_faChksum_keepsInv hinv hattempt hphaseInv.1)
  case faAppend => exact .of_phase hp rfl (exec_faAppend_keepsInv hinv hattempt hphaseInv)
  case faAdvance => exact .of_phase hp rfl (exec_faAdvance_keepsInv hinv hattempt hphaseInv)
  case shChkmin =>
    obtain ⟨hassembled, hnone⟩ := hphaseInv
    exact .of_phase hp rfl (exec_shChkmin_keepsInv hinv hattempt hassembled hnone)
  case shChktag =>
    obtain ⟨hassembled, hnone⟩ := hphaseInv
    exact .of_phase hp rfl (exec_shChktag_keepsInv hinv hattempt hassembled hnone)
  case shChkstl =>
    obtain ⟨hassembled, hnone⟩ := hphaseInv
    exact .of_phase hp rfl (exec_shChkstl_keepsInv hinv hattempt hassembled hnone)
  case shLen =>
    obtain ⟨hassembled, hnone⟩ := hphaseInv
    cases hprofile : s.profile with
    | generic =>
      exact .of_phase hp (by rw [hprofile]; rfl) (exec_shLenGen_keepsInv hinv hattempt hassembled hprofile hnone)
    | vendorQuirk =>
      exact .of_phase hp (by rw [hprofile]; rfl) (exec_shLenVq_keepsInv hinv hattempt hassembled hprofile hnone)
  case shCons =>
    obtain ⟨hassembled, hparsed, hnone⟩ := hphaseInv
    exact .of_phase hp rfl (exec_shCons_keepsInv hinv hattempt hassembled hparsed hnone)
  case shChksec =>
    obtain ⟨hassembled, hparsed, hconsistent, hnone⟩ := hphaseInv
    exact .of_phase hp rfl (exec_shChksec_keepsInv hinv hattempt hassembled hparsed hconsistent hnone)
  case shLatch =>
    obtain ⟨hassembled, hparsed, hconsistent, hsec, hnone⟩ := hphaseInv
    exact .of_phase hp rfl (exec_shLatch_keepsInv hinv hattempt hassembled hparsed hconsistent hsec hnone)
  case dxIv =>
    obtain ⟨hassembled, hparsed, hconsistent, hsec, htitle, hnone⟩ := hphaseInv
    exact .of_phase hp rfl (exec_dxIv_keepsInv hinv hattempt hassembled hparsed hconsistent hsec htitle hnone)
  case dxGcm =>
    obtain ⟨hassembled, hparsed, hconsistent, hsec, hbuilt, -⟩ := hphaseInv
    exact .of_phase hp rfl (exec_dxGcm_keepsInv hinv hattempt hassembled hparsed hconsistent hsec hbuilt)
  case dxChkpt =>
    obtain ⟨-, -, hconsistent, hsec, hbuilt, hsized⟩ := hphaseInv
    exact .of_phase hp rfl (exec_dxChkpt_keepsInv hinv hattempt hconsistent hsec hbuilt hsized)

end

/-! ## The host transactions -/

/-- An answer that is a next state with the invariant, or that there is no step. -/
def KeepsInvOrRefuses (r : StepResult) : Prop := KeepsInv r ∨ ∃ e, r = .refused e

section
variable {s : State} (hinv : s.Inv)
include hinv

/-- Before CONSTRUCT nothing has been emitted, so OUTCOME None agrees. -/
theorem exec_construct_keepsInv (key : ByteString) (profile : Profile) :
    KeepsInvOrRefuses (exec (.construct key profile) s) := by
  by_cases hlen : key.length = 16
  case neg => exact .inr ⟨_, exec_construct_of_length_ne hlen profile⟩
  case pos =>
    cases hconstructed : s.constructed with
    | true => exact .inr ⟨_, exec_construct_again hlen profile hconstructed⟩
    | false =>
      obtain ⟨k, hk⟩ := Option.ne_none_iff_exists'.1 fun hnone => toVector?_eq_none.1 hnone hlen
      obtain ⟨-, -, hempty, -, -⟩ := hinv
      obtain ⟨-, -, -, hevents⟩ := hempty hconstructed
      refine .inl ⟨_, exec_construct_of_key (toVector?_eq_some.1 hk) profile hconstructed, rfl,
        State.withinCapacity_iff.2 fun _ _ => Nat.zero_le _, nofun, ?events, rfl, rfl, rfl, rfl, rfl, rfl, rfl, rfl,
        rfl, rfl, rfl⟩
      case events => simp [State.outcomeMatchesEvents, hevents]

section
variable (hidle : s.phase = .idle)
include hidle

/-- PUSH finds room for its byte, so the capacity holds after it. -/
theorem exec_push_keepsInv (b : Byte) : KeepsInvOrRefuses (exec (.push b) s) := by
  cases hconstructed : s.constructed with
  | false => exact .inr ⟨_, exec_push_of_unconstructed hconstructed b⟩
  | true =>
    by_cases hfull : bufferLimit s.params = some s.rawLen
    case pos => exact .inr ⟨_, (exec_push_of_idle hconstructed hidle b).trans (if_pos hfull)⟩
    case neg =>
      have hphase : s.noEphemeral := by simpa only [State.phaseInv, hidle] using hinv.phaseInv
      obtain ⟨hraw, hcapacity, -, houtcome, -⟩ := hinv
      refine .inl ⟨_, (exec_push_of_idle hconstructed hidle b).trans (if_neg hfull), Memory.wf_append hraw [b],
        ?capacity, fun hnew => ?new, houtcome, ?phase⟩
      case capacity =>
        refine State.withinCapacity_iff.2 fun n hn => ?_
        have hle := State.withinCapacity_iff.1 hcapacity n hn
        have hne : n ≠ s.rawLen := fun heq => hfull (heq ▸ hn)
        simp only [State.rawLen_eq, Memory.append_length, List.length_singleton] at hle hne ⊢
        omega
      case new => exact absurd hconstructed (hnew ▸ Bool.false_ne_true)
      case phase =>
        simp only [State.phaseInv, hidle]
        exact hphase

theorem exec_trigger_keepsInv : KeepsInvOrRefuses (exec .trigger s) := by
  cases hconstructed : s.constructed with
  | false => exact .inr ⟨_, exec_trigger_of_unconstructed hconstructed⟩
  | true =>
    rw [exec_trigger_of_idle hconstructed hidle]
    by_cases hraw : s.rawLen = 0
    case pos =>
      rw [if_pos hraw]
      exact .inl (.next hinv)
    case neg =>
      rw [if_neg hraw]
      have hphase : s.noEphemeral := by simpa only [State.phaseInv, hidle] using hinv.phaseInv
      obtain ⟨-, -, -, hnone⟩ := hphase
      obtain ⟨hwf, hcapacity, -, houtcome, -⟩ := hinv
      refine .inl (.next ⟨hwf, hcapacity, fun hnew => ?_, houtcome, 0, [], rfl, rfl, rfl, Nat.le_refl 0,
        Nat.pos_of_ne_zero hraw, Nat.zero_le _, hnone⟩)
      exact absurd hconstructed (hnew ▸ Bool.false_ne_true)

theorem exec_hostTransaction_keepsInv {i : Instr} (hhost : i.isHostTransaction = true) :
    KeepsInvOrRefuses (exec i s) := by
  cases i with
  | construct key profile => exact exec_construct_keepsInv hinv key profile
  | push b => exact exec_push_keepsInv hinv hidle b
  | trigger => exact exec_trigger_keepsInv hinv hidle
  | _ => cases hhost

theorem step_keepsInv_of_idle : KeepsInvOrRefuses (step s) := by
  cases hpending : s.pending with
  | nil =>
    rw [step_of_idle_nil hidle hpending]
    exact .inl (.next hinv)
  | cons line rest =>
    cases hdecode : decode line with
    | error e => exact .inr ⟨_, step_of_idle_undecodable hidle hpending hdecode⟩
    | ok i =>
      cases hhost : i.isHostTransaction with
      | false => exact .inr ⟨_, step_of_idle_internal hidle hpending hdecode hhost⟩
      | true =>
        rw [step_of_idle_host hidle hpending hdecode hhost]
        exact exec_hostTransaction_keepsInv (s := { s with pending := rest }) hinv hidle hhost

end
end

/-! ## The two obligations -/

theorem KeepsInvOrRefuses.isSafe {r : StepResult} (h : KeepsInvOrRefuses r) : isSafe r := by
  obtain ⟨t, rfl, -⟩ | ⟨e, rfl⟩ := h <;> nofun

theorem step_keepsInv {s : State} (hinv : s.Inv) : KeepsInvOrRefuses (step s) := by
  by_cases hidle : s.phase = .idle
  · exact step_keepsInv_of_idle hinv hidle
  · exact .inl (step_keepsInv_of_attempt hinv hidle)

/-- Settles O48: the step answers one state, and that one has the invariant. -/
theorem stepKeepsTheInvariant : Obligations.StepKeepsTheInvariant := by
  intro s t hinv hstep
  obtain ⟨u, hu, huinv⟩ | ⟨e, he⟩ := step_keepsInv hinv
  · rw [hu] at hstep
    cases hstep
    exact huinv
  · rw [he] at hstep
    cases hstep

/-- Settles O49: no step faults, and only in IDLE is one refused. -/
theorem invariantStatesNeverFault : Obligations.InvariantStatesNeverFault := fun _ hinv =>
  ⟨(step_keepsInv hinv).isSafe, fun hattempt => (step_keepsInv_of_attempt hinv hattempt).imp fun _ h => h.1⟩

end Sys2Proof.Machine
end

section
/-! The loop of Assemble, one round at a time (R108, R109, R111): the checks on one frame, what a round makes of their
answer, and from these that the loop ends by itself and that it reads back what FRAME has written. -/

namespace Sys2Proof.Machine

/-- A chain of checks answers a value only where none of them fails. -/
theorem ite_error_eq_ok {ε α : Type} {bad : Prop} [Decidable bad] {e : ε} {r : Except ε α} {x : α} :
    (if bad then .error e else r) = .ok x ↔ ¬ bad ∧ r = .ok x := by
  by_cases hbad : bad
  · rw [if_pos hbad]
    exact ⟨nofun, fun h => absurd hbad h.1⟩
  · rw [if_neg hbad]
    exact ⟨fun h => ⟨hbad, h⟩, fun h => h.2⟩

/-- A test that names what it accepts. -/
theorem ite_else_error_eq_ok {ε α : Type} {good : Prop} [Decidable good] {e : ε} {r : Except ε α} {x : α} :
    (if good then r else .error e) = .ok x ↔ good ∧ r = .ok x := by
  rw [← ite_not, ite_error_eq_ok, Decidable.not_not]

/-! ## One round -/

/-- The checks of one round at offset `f`, with the frame's length byte where they all pass. -/
def frameCheck (p : Params) (raw : ByteString) (f : Nat) : Except FramingError Byte :=
  if raw.length - f < 4 then .error .truncated
  else if raw[f]? ≠ some 0x68 ∨ raw[f + 3]? ≠ some 0x68 then .error .badStartMarker
  else if raw[f + 1]? ≠ raw[f + 2]? then .error .lengthMismatch
  else if raw.length - f < (raw.getD (f + 1) 0).toNat + 6 then .error .truncated
  else if raw[f + (raw.getD (f + 1) 0).toNat + 5]? ≠ some 0x16 then .error .badStopMarker
  else if p.checksumVerify = true ∧
      some (byteSum ((raw.drop (f + 4)).take (raw.getD (f + 1) 0).toNat)) ≠
        raw[f + 4 + (raw.getD (f + 1) 0).toNat]? then .error .badChecksum
  else if (raw.getD (f + 1) 0).toNat < p.nCi.val then .error .truncated
  else .ok (raw.getD (f + 1) 0)

/-- The payload slice of a frame with the length byte `len` at `f` (R71). -/
def framePayload (p : Params) (raw : ByteString) (f : Nat) (len : Byte) : ByteString :=
  (raw.drop (f + 4 + p.nCi.val)).take (len.toNat - p.nCi.val)

/-- What a round makes of its checks: the error, or its payload and, inside RAW, the rounds left. -/
def assembleNext (p : Params) (raw : ByteString) (rounds f : Nat) (ct : ByteString) :
    Except FramingError Byte → Except (FramingError × Nat) ByteString
  | .error e => .error (e, f)
  | .ok len =>
    if f + len.toNat + 6 ≥ raw.length then .ok (ct ++ framePayload p raw f len)
    else assembleFrom p raw rounds (f + len.toNat + 6) (ct ++ framePayload p raw f len)

section
variable {p : Params} {raw : ByteString} {f : Nat} {len : Byte}

theorem assembleFrom_succ (p : Params) (raw : ByteString) (rounds f : Nat) (ct : ByteString) :
    assembleFrom p raw (rounds + 1) f ct = assembleNext p raw rounds f ct (frameCheck p raw f) := by
  simp only [assembleFrom, frameCheck, apply_ite (assembleNext p raw rounds f ct)]
  simp only [assembleNext, framePayload]

/-- A frame that passes its checks is inside RAW. -/
theorem frameCheck_ok_size (h : frameCheck p raw f = .ok len) : f + len.toNat + 6 ≤ raw.length := by
  simp only [frameCheck, ite_error_eq_ok] at h
  obtain ⟨_, -, -, hlong, -, -, -, h⟩ := h
  cases h
  omega

/-! ## The loop ends by itself (R109) -/

/-- Settles O52: induction on the rounds; a round that goes on leaves at least six bytes fewer. -/
theorem assembleLoopEndsByItself : Obligations.AssembleLoopEndsByItself := by
  intro p raw ct f m n hf hm hn
  induction m generalizing f n ct with
  | zero => omega
  | succ m ih =>
    cases n with
    | zero => omega
    | succ n =>
      rw [assembleFrom_succ, assembleFrom_succ]
      cases hcheck : frameCheck p raw f with
      | error e => rfl
      | ok len =>
        have hsize := frameCheck_ok_size hcheck
        simp only [assembleNext]
        split
        · rfl
        · exact ih _ _ _ hsize (by omega) (by omega)

/-! ## The framing round trip (R111) -/

/-- The checks read nothing before the frame. -/
theorem frameCheck_append_left (p : Params) (before raw : ByteString) :
    frameCheck p (before ++ raw) before.length = frameCheck p raw 0 := by
  have hat (k : Nat) : (before ++ raw)[before.length + k]? = raw[k]? := by
    rw [List.getElem?_append_right (Nat.le_add_right _ _), Nat.add_sub_cancel_left]
  have hlen : (before ++ raw).length - before.length = raw.length := by simp
  have hzero : (before ++ raw)[before.length]? = raw[0]? := hat 0
  simp only [frameCheck, List.getD_eq_getElem?_getD, Nat.add_assoc, hat, hzero, hlen, List.drop_length_add_append,
    Nat.zero_add, Nat.sub_zero]

theorem framePayload_append_left (p : Params) (before raw : ByteString) (len : Byte) :
    framePayload p (before ++ raw) before.length len = framePayload p raw 0 len := by
  simp only [framePayload, Nat.add_assoc, List.drop_length_add_append, Nat.zero_add]

end

section
variable {p : Params} {ci payload : ByteString} (hci : ci.length = p.nCi.val) (hlen : ci.length + payload.length ≤ 255)

theorem frameBytes_length (ci payload : ByteString) :
    (frameBytes ci payload).length = ci.length + payload.length + 6 := by
  simp only [frameBytes, List.length_append, List.length_cons, List.length_nil]
  omega

/-- The two length bytes of a frame (R70). -/
def frameLength (ci payload : ByteString) : Byte := BitVec.ofNat 8 (ci.length + payload.length)

/-- A frame as its header, its body and its footer, before whatever follows it. -/
theorem frameBytes_append (ci payload rest : ByteString) :
    frameBytes ci payload ++ rest =
      0x68 :: frameLength ci payload :: frameLength ci payload :: 0x68 ::
        ((ci ++ payload) ++ byteSum (ci ++ payload) :: 0x16 :: rest) := by
  simp [frameBytes, frameLength]

include hlen in
theorem frameLength_toNat : (frameLength ci payload).toNat = ci.length + payload.length := by
  rw [frameLength, BitVec.toNat_ofNat]
  omega

include hci hlen in
/-- A frame that FRAME writes passes every check, the checksum's included. -/
theorem frameCheck_frameBytes (rest : ByteString) :
    frameCheck p (frameBytes ci payload ++ rest) 0 = .ok (frameLength ci payload) := by
  have hbody : (ci ++ payload).length = (frameLength ci payload).toNat := by
    rw [frameLength_toNat hlen, List.length_append]
  have hnCi : ¬ (frameLength ci payload).toNat < p.nCi.val := by
    rw [frameLength_toNat hlen]
    omega
  rw [frameBytes_append]
  generalize ci ++ payload = body at hbody
  generalize frameLength ci payload = len at hbody hnCi
  have hpresent : ¬ len.toNat + (rest.length + 1 + 1) + 1 + 1 + 1 + 1 < len.toNat + 6 := by omega
  have hsumOffset : 0 + 4 + len.toNat = len.toNat + 1 + 1 + 1 + 1 := by omega
  simp [frameCheck, hsumOffset, hbody, hpresent, hnCi]

include hci hlen in
theorem framePayload_frameBytes (rest : ByteString) :
    framePayload p (frameBytes ci payload ++ rest) 0 (frameLength ci payload) = payload := by
  have hoffset : 0 + 4 + p.nCi.val = ci.length + 1 + 1 + 1 + 1 := by omega
  have hsize : (frameLength ci payload).toNat - p.nCi.val = payload.length := by
    rw [frameLength_toNat hlen]
    omega
  rw [framePayload, hsize, hoffset, frameBytes_append]
  simp

end

/-- What the rounds from the end of `before` on make of well-formed frames there. -/
theorem assembleFrom_frames {p : Params} (frames : List (ByteString × ByteString)) (hne : frames ≠ [])
    (hframes : ∀ fr ∈ frames, fr.1.length = p.nCi.val ∧ fr.1.length + fr.2.length ≤ 255) (before ct : ByteString)
    (rounds : Nat) (hrounds : (frames.map fun fr => frameBytes fr.1 fr.2).flatten.length < 6 * rounds) :
    assembleFrom p (before ++ (frames.map fun fr => frameBytes fr.1 fr.2).flatten) rounds before.length ct =
      .ok (ct ++ (frames.map Prod.snd).flatten) := by
  induction frames generalizing before ct rounds with
  | nil => exact absurd rfl hne
  | cons fr frames ih =>
    obtain ⟨ci, payload⟩ := fr
    obtain ⟨⟨hci, hlen⟩, hrest⟩ := List.forall_mem_cons.1 hframes
    simp only [List.map_cons, List.flatten_cons, List.length_append, frameBytes_length] at hci hlen hrounds ⊢
    cases rounds with
    | zero => omega
    | succ rounds =>
      rw [assembleFrom_succ, frameCheck_append_left, frameCheck_frameBytes hci hlen]
      simp only [assembleNext, framePayload_append_left, framePayload_frameBytes hci hlen, frameLength_toNat hlen,
        List.length_append, frameBytes_length]
      cases frames with
      | nil => simp [Nat.add_assoc]
      | cons fr' frames =>
        have hmore : 0 < (((fr' :: frames).map fun fr => frameBytes fr.1 fr.2).flatten).length := by
          simp only [List.map_cons, List.flatten_cons, List.length_append, frameBytes_length]
          omega
        rw [if_neg (by omega), ← List.append_assoc, ← List.append_assoc]
        have hend : before.length + (ci.length + payload.length) + 6 = (before ++ frameBytes ci payload).length := by
          rw [List.length_append, frameBytes_length]
          omega
        rw [hend]
        exact ih (List.cons_ne_nil _ _) hrest _ _ rounds (by omega)

/-- Settles O53: the frames from the first byte on, and rounds enough for them. -/
theorem framingRoundTrip : Obligations.FramingRoundTrip := by
  intro p frames hne hframes
  exact assembleFrom_frames frames hne hframes [] [] _ (by omega)

end Sys2Proof.Machine
end

section
/-! ParseHeader (R128) cut at its length field: the checks before it, the length field's own form, and the checks and
values after it. -/

namespace Sys2Proof.Machine

/-- The part of ParseHeader that reads a length field already parsed (R125 to R127). -/
def parseAfterLength (p : Params) (ct : ByteString) (v : LengthField) : Except (HeaderError × ErrorInfo) SecureHeader :=
  if v.lenf.toNat < p.lenCorrection then .error (.lengthInconsistent, .lenf v.lenf)
  else if ct.length - 16 - v.hdrOff.toNat ≠ v.lenf.toNat - p.lenCorrection then
    .error (.lengthInconsistent, .lenf v.lenf)
  else if ct.getD (11 + v.hdrOff.toNat) 0 ≠ 0x20 ∧ ct.getD (11 + v.hdrOff.toNat) 0 ≠ 0x21 then
    .error (.unsupportedSecurityByte, .byte (ct.getD (11 + v.hdrOff.toNat) 0))
  else
    .ok { systemTitle := bytesAt ct 2 8
          frameCounter := bytesAt ct (12 + v.hdrOff.toNat) 4
          messageLength := messageLength p v.lenf
          headerOffset := v.hdrOff
          securityByte := ct.getD (11 + v.hdrOff.toNat) 0 }

theorem parseHeader_eq (p : Params) (ct : ByteString) (profile : Profile) :
    parseHeader p ct profile =
      if ct.length < 20 then .error (.tooShort, .ctLen ct.length)
      else if ct.getD 0 0 ≠ 0xDB then .error (.unsupportedCipher, .byte (ct.getD 0 0))
      else if ct.getD 1 0 ≠ 0x08 then .error (.unsupportedTitleLength, .byte (ct.getD 1 0))
      else (parseLength ct profile).bind (parseAfterLength p ct) := by
  unfold parseHeader
  cases parseLength ct profile <;> rfl

section
variable {p : Params} {ct : ByteString} {v : LengthField} {h : SecureHeader}

/-- A header that is parsed has passed the checks on its size, and its length field is one of the profile's forms. -/
theorem parseHeader_eq_ok {profile : Profile} (hparse : parseHeader p ct profile = .ok h) :
    20 ≤ ct.length ∧ ∃ v, parseLength ct profile = .ok v ∧ parseAfterLength p ct v = .ok h := by
  simp only [parseHeader_eq, ite_error_eq_ok] at hparse
  obtain ⟨hshort, -, -, hparse⟩ := hparse
  cases hlength : parseLength ct profile with
  | error e =>
    rw [hlength] at hparse
    cases hparse
  | ok v =>
    rw [hlength] at hparse
    exact ⟨Nat.not_lt.1 hshort, v, rfl, hparse⟩

/-- What the header parsed says of its length field and of the ciphertext. -/
theorem parseAfterLength_eq_ok (hparse : parseAfterLength p ct v = .ok h) :
    h.messageLength.toNat + p.lenCorrection = v.lenf.toNat ∧ h.headerOffset = v.hdrOff ∧
      h.securityByte = ct.getD (11 + v.hdrOff.toNat) 0 ∧
      ct.length - 16 - v.hdrOff.toNat = h.messageLength.toNat := by
  simp only [parseAfterLength, ite_error_eq_ok] at hparse
  obtain ⟨hcorrection, hequal, -, hparse⟩ := hparse
  cases hparse
  have htoNat := messageLength_toNat p v.lenf
  refine ⟨?_, rfl, rfl, ?_⟩
  · change (messageLength p v.lenf).toNat + p.lenCorrection = _
    omega
  · change _ = (messageLength p v.lenf).toNat
    omega

end

/-- Two bytes make at most sixteen bits. -/
theorem ofNat_two_bytes_toNat (hi lo : Byte) :
    (BitVec.ofNat 16 (256 * hi.toNat + lo.toNat)).toNat = 256 * hi.toNat + lo.toNat := by
  have hhi := hi.isLt
  have hlo := lo.isLt
  rw [BitVec.toNat_ofNat]
  omega

/-- Settles O32: the form of the length field that each profile has accepted. -/
theorem quirkDisambiguation : Obligations.QuirkDisambiguation := by
  refine fun p ct h => ⟨fun hparse hmark => ?generic, fun hparse => ?vendor⟩
  case generic =>
    obtain ⟨-, v, hlength, hparse⟩ := parseHeader_eq_ok hparse
    obtain ⟨hmessage, hoffset, -, -⟩ := parseAfterLength_eq_ok hparse
    rw [parseLength, if_pos hmark] at hlength
    cases hlength
    exact ⟨hmessage.trans (ofNat_two_bytes_toNat _ _), hoffset⟩
  case vendor =>
    obtain ⟨hlong, v, hlength, hparse⟩ := parseHeader_eq_ok hparse
    obtain ⟨hmessage, hoffset, hsec, hconsistent⟩ := parseAfterLength_eq_ok hparse
    obtain ⟨⟨-, hlen, hlast⟩, hlength⟩ := ite_else_error_eq_ok.1 hlength
    cases hlength
    rw [hlen] at hmessage ⊢
    have hone : (1 : BitVec 2).toNat = 1 := rfl
    refine ⟨rfl, hmessage, hoffset, hsec.trans hlast, ?_⟩
    simp only [hone] at hconsistent
    omega

end Sys2Proof.Machine
end

section
/-! A TRIGGER run operation by operation (R163, R164, R169). Each check of Decode is one operation's test, so a run
follows Decode's tests one step each: the frames by the rounds of Assemble, then the header, then the plaintext. The
number of steps is counted along the way. -/

namespace Sys2Proof.Machine

/-! ## Runs of bounded length -/

/-- A run of at most `n` steps from `s` comes to `u`. -/
def ReachesWithin (n : Nat) (s u : State) : Prop := ∃ k ≤ n, Host.Core.run core k s = .next u

namespace ReachesWithin

variable {m n : Nat} {s t u : State}

theorem refl : ReachesWithin n s s := ⟨0, Nat.zero_le n, rfl⟩

theorem head (hstep : step s = .next t) (h : ReachesWithin n t u) : ReachesWithin (n + 1) s u := by
  obtain ⟨k, hk, hrun⟩ := h
  exact ⟨k + 1, Nat.succ_le_succ hk, (run_succ_of_step (M := core) hstep k).trans hrun⟩

theorem mono (h : ReachesWithin m s u) (hmn : m ≤ n) : ReachesWithin n s u := by
  obtain ⟨k, hk, hrun⟩ := h
  exact ⟨k, Nat.le_trans hk hmn, hrun⟩

theorem run_add {M : Host.Core} {s t : M.State} {j : Nat} (k : Nat) (h : M.run j s = .next t) :
    M.run (j + k) s = M.run k t := by
  induction j generalizing s with
  | zero =>
    cases h
    rw [Nat.zero_add]
  | succ j ih =>
    cases hstep : M.step s with
    | next s' =>
      rw [run_succ_of_step hstep] at h
      rw [Nat.add_right_comm, run_succ_of_step hstep, ih h]
    | fault r => simp [Host.Core.run, hstep] at h
    | refused r => simp [Host.Core.run, hstep] at h

theorem trans (hst : ReachesWithin m s t) (htu : ReachesWithin n t u) : ReachesWithin (m + n) s u := by
  obtain ⟨j, hj, hrun⟩ := hst
  obtain ⟨k, hk, hrun'⟩ := htu
  exact ⟨j + k, Nat.add_le_add hj hk, (run_add (M := core) k hrun).trans hrun'⟩

/-- An operation that raises where Decode's test fails, and else goes on: `g` makes a state of Decode's answer. -/
theorem check {α : Type} {g : α → State} {bad bad' : Prop} [Decidable bad] [Decidable bad'] {x y : α} {raised : State}
    (hstep : step s = .next (if bad' then raised else t)) (hsame : bad' ↔ bad) (hraised : raised = g x)
    (hgood : ¬ bad → ReachesWithin n t (g y)) : ReachesWithin (n + 1) s (g (if bad then x else y)) := by
  by_cases hbad : bad
  case pos =>
    rw [if_pos (hsame.2 hbad)] at hstep
    rw [if_pos hbad, ← hraised]
    exact refl.head hstep
  case neg =>
    rw [if_neg (mt hsame.1 hbad)] at hstep
    rw [if_neg hbad]
    exact (hgood hbad).head hstep

end ReachesWithin

/-! ## What Decode's answers make of the state (R169) -/

/-- The end of the attempt after Decrypt. -/
def State.afterDecrypt (s : State) (hdr : SecureHeader) : Except DecryptError ByteString → State
  | .error e => s.raise (.decrypt e) .none
  | .ok pt => s.succeed hdr pt

/-- The end of the attempt after ParseHeader on `ct`. -/
def State.afterHeader (s : State) (ct : ByteString) : Except (HeaderError × ErrorInfo) SecureHeader → State
  | .error (e, info) => s.raise (.header e) info
  | .ok hdr => s.afterDecrypt hdr (decrypt s.params ct hdr s.key)

/-- The end of the attempt after Assemble. -/
def State.afterAssemble (s : State) : Except (FramingError × Nat) ByteString → State
  | .error (e, f) => s.raise (.framing e) (.frameOff f)
  | .ok ct => s.afterHeader ct (parseHeader s.params ct s.profile)

theorem attemptResult_eq (s : State) :
    attemptResult s = s.afterAssemble (assemble s.params (Memory.bytes s.raw)) := by
  unfold attemptResult decodeAttempt
  cases assemble s.params (Memory.bytes s.raw) with
  | error e => rfl
  | ok ct =>
    simp only [State.afterAssemble]
    cases parseHeader s.params ct s.profile with
    | error e => rfl
    | ok hdr =>
      simp only [State.afterHeader]
      cases decrypt s.params ct hdr s.key <;> rfl

/-! ## The frames -/

/-- Inside the Frame Assembler: FRAME_OFF, L, CT and PHASE, over the state that the attempt has started from. -/
def State.atFrame (s : State) (f : Nat) (l : Option Byte) (ct : ByteString) (ph : Phase) : State :=
  { s with frameOff := some f, l := l, ct := some (Memory.ofBytes ct), phase := ph }

/-- What the checks of one round make of the state: the error raised, or the payload appended. -/
def State.afterFrameCheck (s : State) (raw : ByteString) (f : Nat) (ct : ByteString) : Except FramingError Byte → State
  | .error e => s.raise (.framing e) (.frameOff f)
  | .ok len => s.atFrame f (some len) (ct ++ framePayload s.params raw f len) .faAdvance

section
variable {s : State} {raw : ByteString} (hraw : s.raw = Memory.ofBytes raw) {f : Nat}
include hraw

theorem State.rawLen_of_ofBytes : s.rawLen = raw.length := by rw [State.rawLen_eq, hraw, Memory.ofBytes_length]

theorem State.read?_raw_of_ofBytes {a : Nat} (ha : a < raw.length) : Memory.read? s.raw a = some (raw.getD a 0) := by
  rw [hraw, Memory.read?_ofBytes_eq_getD ha]

theorem State.read_raw_of_ofBytes {a n : Nat} (h : a + n ≤ raw.length) :
    Memory.read s.raw a n = some ((raw.drop a).take n) := by
  rw [hraw, Memory.read_ofBytes, if_pos h]

end

/-- FA.APPEND, with its own test for the control information. -/
theorem reaches_afterFrameCheck_of_append {s : State} {raw : ByteString} (hraw : s.raw = Memory.ofBytes raw) {f : Nat}
    {len : Byte} (ct : ByteString) (hsize : f + len.toNat + 6 ≤ raw.length) :
    ReachesWithin 1 (s.atFrame f (some len) ct .faAppend)
      (s.afterFrameCheck raw f ct (if len.toNat < s.params.nCi.val then .error .truncated else .ok len)) := by
  by_cases hshort : len.toNat < s.params.nCi.val
  case pos =>
    rw [if_pos hshort]
    exact .head ((step_of_phase rfl rfl).trans (exec_faAppend_of_short rfl rfl hshort)) .refl
  case neg =>
    rw [if_neg hshort]
    have hslice : Memory.read s.raw (f + 4 + s.params.nCi.val) (len.toNat - s.params.nCi.val) =
      some (framePayload s.params raw f len) := State.read_raw_of_ofBytes hraw (by omega)
    have happend := exec_faAppend_of_read (s := s.atFrame f (some len) ct .faAppend) rfl rfl (Nat.not_lt.1 hshort) rfl
      hslice
    rw [Memory.append_ofBytes] at happend
    exact .head ((step_of_phase rfl rfl).trans happend) .refl

/-- FA.CHKSUM, where it runs, and FA.APPEND. -/
theorem reaches_afterFrameCheck_of_chkstop {s : State} {raw : ByteString} (hraw : s.raw = Memory.ofBytes raw) {f : Nat}
    {len : Byte} (ct : ByteString) (hsize : f + len.toNat + 6 ≤ raw.length) :
    ReachesWithin 2 (s.atFrame f (some len) ct (if s.params.checksumVerify = true then .faChksum else .faAppend))
      (s.afterFrameCheck raw f ct
        (if s.params.checksumVerify = true ∧
            some (byteSum ((raw.drop (f + 4)).take len.toNat)) ≠ raw[f + 4 + len.toNat]? then .error .badChecksum
          else if len.toNat < s.params.nCi.val then .error .truncated else .ok len)) := by
  have happend := reaches_afterFrameCheck_of_append hraw ct hsize
  cases hverify : s.params.checksumVerify with
  | false =>
    simp only [Bool.false_eq_true, false_and, if_false]
    exact happend.mono (by decide)
  | true =>
    simp only [if_true, true_and]
    have hbody : Memory.read s.raw (f + 4) len.toNat = some ((raw.drop (f + 4)).take len.toNat) :=
      State.read_raw_of_ofBytes hraw (by omega)
    have hsum := State.read?_raw_of_ofBytes hraw (a := f + 4 + len.toNat) (by omega)
    refine .check ((step_of_phase rfl rfl).trans (exec_faChksum_of_read rfl rfl hbody hsum)) ?_ rfl fun _ => happend
    rw [getElem?_eq_some_getD (by omega), ne_eq, ne_eq, Option.some_inj]

/-- The document's size test (R103) is implied by the bounds test, which alone decides. -/
theorem exec_faChksize_eq_bounds {s : State} {f : Nat} {len : Byte} (hf : s.frameOff = some f)
    (hlen : Memory.read? s.raw (f + 1) = some len) :
    exec .faChksize s =
      .next (if s.rawLen - f < len.toNat + 6 then s.raise (.framing .truncated) (.frameOff f)
        else { s with l := some len, phase := .faChkstop }) := by
  rw [exec_faChksize_of_read hf hlen]
  by_cases hslack : s.rawLen - f < len.toNat + 3
  case pos => rw [if_pos hslack, if_pos (by omega)]
  case neg => rw [if_neg hslack]

/-- One round: the operations from FA.CHKSTART to FA.APPEND are the checks of Assemble, in their order. -/
theorem reaches_afterFrameCheck {s : State} {raw : ByteString} (hraw : s.raw = Memory.ofBytes raw) (f : Nat)
    (l : Option Byte) (ct : ByteString) :
    ReachesWithin 6 (s.atFrame f l ct .faChkstart) (s.afterFrameCheck raw f ct (frameCheck s.params raw f)) := by
  have hrawLen := State.rawLen_of_ofBytes hraw
  unfold frameCheck
  by_cases hshort : raw.length - f < 4
  case pos =>
    rw [if_pos hshort]
    exact .head ((step_of_phase rfl rfl).trans (exec_faChkstart_of_short rfl (hrawLen ▸ hshort))) .refl
  case neg =>
    rw [if_neg hshort]
    have h0 := State.read?_raw_of_ofBytes hraw (a := f) (by omega)
    have h1 := State.read?_raw_of_ofBytes hraw (a := f + 1) (by omega)
    have h2 := State.read?_raw_of_ofBytes hraw (a := f + 2) (by omega)
    have h3 := State.read?_raw_of_ofBytes hraw (a := f + 3) (by omega)
    have hfour : 4 ≤ (s.atFrame f l ct .faChkstart).rawLen - f := hrawLen ▸ Nat.not_lt.1 hshort
    refine .check ((step_of_phase rfl rfl).trans (faChkstartChecksBothMarkers _ f rfl |>.2 _ _ hfour h0 h3)) ?_ rfl
      fun _ => .check ((step_of_phase rfl rfl).trans (faChklenComparesLengthBytes _ f _ _ rfl h1 h2)) ?_ rfl fun _ => ?_
    · rw [getElem?_eq_some_getD (by omega), getElem?_eq_some_getD (by omega)]
      simp only [ne_eq, Option.some_inj]
    · rw [getElem?_eq_some_getD (by omega), getElem?_eq_some_getD (by omega), ne_eq, ne_eq, Option.some_inj]
    generalize raw.getD (f + 1) 0 = len at h1
    refine .check ((step_of_phase rfl rfl).trans (exec_faChksize_eq_bounds rfl h1)) (hrawLen ▸ Iff.rfl) rfl
      fun hlong => ?_
    have hstop := State.read?_raw_of_ofBytes hraw (a := f + len.toNat + 5) (by omega)
    refine .check ((step_of_phase rfl rfl).trans (faChkstopChecksStopByte _ f len _ rfl rfl hstop)) ?_ rfl fun _ =>
      reaches_afterFrameCheck_of_chkstop hraw ct (by omega)
    rw [getElem?_eq_some_getD (by omega), ne_eq, ne_eq, Option.some_inj]

/-! ## The header -/

section
variable {s : State} {f : Nat} {l : Option Byte} {ct : ByteString}

/-- SH.LEN.GEN and SH.LEN.VQ latch what the profile's form reads. -/
theorem step_shLen_of_ok (hlong : 20 ≤ ct.length) {v : LengthField} (h : parseLength ct s.profile = .ok v) :
    step (s.atFrame f l ct .shLen) = .next ((s.atFrame f l ct .shLen).latchLength v) := by
  have h10 := Memory.read?_ofBytes_eq_getD (bs := ct) (a := 10) (by omega)
  have h11 := Memory.read?_ofBytes_eq_getD (bs := ct) (a := 11) (by omega)
  have h12 := Memory.read?_ofBytes_eq_getD (bs := ct) (a := 12) (by omega)
  cases hprofile : s.profile with
  | generic =>
    refine (step_of_phase rfl (i := .shLenGen) (congrArg (sequencedOperation .shLen) hprofile)).trans ?_
    rw [hprofile, parseLength] at h
    by_cases hmark : ct.getD 10 0 = 0x82
    · rw [if_pos hmark] at h
      cases h
      exact exec_shLenGen_of_formG3 rfl (h10.trans (congrArg some hmark)) h11 h12
    · rw [if_neg hmark] at h
      cases h
      exact exec_shLenGen_of_formG1 rfl h10 hmark
  | vendorQuirk =>
    refine (step_of_phase rfl (i := .shLenVq) (congrArg (sequencedOperation .shLen) hprofile)).trans ?_
    rw [hprofile] at h
    obtain ⟨hmarker, h⟩ := ite_else_error_eq_ok.1 h
    cases h
    rw [exec_shLenVq_of_read rfl h10 h11 h12, if_pos ((isV2Marker_iff _ _ _).2 hmarker)]
    rfl

/-- SH.LEN.VQ alone raises. -/
theorem step_shLen_of_error (hlong : 20 ≤ ct.length) {e : HeaderError} {info : ErrorInfo}
    (h : parseLength ct s.profile = .error (e, info)) :
    step (s.atFrame f l ct .shLen) = .next (s.raise (.header e) info) := by
  cases hprofile : s.profile with
  | generic =>
    rw [hprofile, parseLength, ← apply_ite Except.ok] at h
    cases h
  | vendorQuirk =>
    refine (step_of_phase rfl (i := .shLenVq) (congrArg (sequencedOperation .shLen) hprofile)).trans ?_
    rw [hprofile, parseLength] at h
    by_cases hmarker : ct.getD 10 0 = 0x81 ∧ ct.getD 11 0 = 0xF8 ∧ ct.getD 12 0 = 0x20
    case pos =>
      rw [if_pos hmarker] at h
      cases h
    case neg =>
      rw [if_neg hmarker] at h
      cases h
      rw [exec_shLenVq_of_read rfl (Memory.read?_ofBytes_eq_getD (by omega))
        (Memory.read?_ofBytes_eq_getD (by omega)) (Memory.read?_ofBytes_eq_getD (by omega)),
        if_neg (mt (isV2Marker_iff _ _ _).1 hmarker)]
      rfl

/-- At DX_IV with the header parsed. -/
def State.atDecryptor (s : State) (f : Nat) (l : Option Byte) (ct : ByteString) (lenf : BitVec 16)
    (hdr : SecureHeader) : State :=
  { s.atFrame f l ct .dxIv with
    lenf := some lenf, hdrOff := some hdr.headerOffset, msgLen := some hdr.messageLength,
    secByte := some hdr.securityByte, sysTitle := some hdr.systemTitle, frameCtr := some hdr.frameCounter }

/-- DX.CHKPT on a plaintext of MSG_LEN bytes. -/
theorem step_dxChkpt {s : State} {hdr : SecureHeader} {p : ByteString} (hphase : s.phase = .dxChkpt)
    (htitle : s.sysTitle = some hdr.systemTitle) (hctr : s.frameCtr = some hdr.frameCounter)
    (hlen : s.msgLen = some hdr.messageLength) (hoff : s.hdrOff = some hdr.headerOffset)
    (hsec : s.secByte = some hdr.securityByte) (hpt : s.pt = some (Memory.ofBytes p))
    (hlength : p.length = hdr.messageLength.toNat) :
    step s = .next (s.afterDecrypt hdr
      (if hdr.messageLength.toNat < 6 then .error .invalidPlaintext
        else if p.getD 0 0 ≠ s.params.structTag ∨ p.getD 5 0 ≠ 0x0C then .error .invalidPlaintext
        else .ok p)) := by
  rw [step_of_phase hphase rfl]
  by_cases hshort : hdr.messageLength.toNat < 6
  case pos =>
    rw [exec_dxChkpt_of_short hlen hshort, if_pos hshort]
    rfl
  case neg =>
    rw [exec_dxChkpt_of_read hlen (Nat.not_lt.1 hshort) hpt (Memory.read?_ofBytes_eq_getD (by omega))
      (Memory.read?_ofBytes_eq_getD (by omega)), if_neg hshort]
    by_cases haccepted : p.getD 0 0 = s.params.structTag ∧ p.getD 5 0 = 0x0C
    case pos =>
      rw [if_pos haccepted, exec_handoff_of_some htitle hctr hlen hoff hsec hpt, Memory.bytes_ofBytes,
        if_neg fun hwrong => hwrong.elim (· haccepted.1) (· haccepted.2)]
      rfl
    case neg =>
      rw [if_neg haccepted, if_pos (Decidable.not_and_iff_not_or_not.1 haccepted)]
      rfl

/-- DX.IV, DX.GCM and DX.CHKPT are Decrypt (R148). -/
theorem reaches_afterDecrypt (s : State) (f : Nat) (l : Option Byte) (ct : ByteString) (lenf : BitVec 16)
    (hdr : SecureHeader) (hlength : 16 + hdr.headerOffset.toNat + hdr.messageLength.toNat ≤ ct.length) :
    ReachesWithin 3 (s.atDecryptor f l ct lenf hdr) (s.afterDecrypt hdr (decrypt s.params ct hdr s.key)) := by
  have hdata : Memory.read (Memory.ofBytes ct) (16 + hdr.headerOffset.toNat) hdr.messageLength.toNat =
      some ((ct.drop (16 + hdr.headerOffset.toNat)).take hdr.messageLength.toNat) := by
    rw [Memory.read_ofBytes, if_pos hlength]
  refine .head ((step_of_phase rfl rfl).trans (exec_dxIv_of_some rfl rfl)) <|
    .head ((step_of_phase rfl rfl).trans (exec_dxGcm_of_read rfl rfl rfl rfl hdata)) ?_
  unfold decrypt
  change ReachesWithin 1 (State.afterGcm _ (gcm s.params.gcm s.key (ivOf hdr.systemTitle hdr.frameCounter) [] _)) _
  cases hanswer : gcm s.params.gcm s.key (ivOf hdr.systemTitle hdr.frameCounter) [] _ with
  | authFail => exact .refl
  | ok p =>
    exact .head (step_dxChkpt (hdr := hdr) rfl rfl rfl rfl rfl rfl rfl
      ((gcm_ok_length hanswer).trans (Memory.read_length hdata))) .refl

/-- From SH.CONS to the end of the attempt. -/
theorem reaches_afterHeader_of_latched (hlong : 20 ≤ ct.length) (v : LengthField) :
    ReachesWithin 6 ((s.atFrame f l ct .shLen).latchLength v) (s.afterHeader ct (parseAfterLength s.params ct v)) := by
  have hoffset := v.hdrOff.isLt
  have hcons := (step_of_phase (s := (s.atFrame f l ct .shLen).latchLength v) rfl rfl).trans
    (shConsChecksDeclaredLength _ _ _ _ rfl rfl rfl |>.1 (by rw [Memory.ofBytes_length]; omega))
  rw [Memory.ofBytes_length] at hcons
  unfold parseAfterLength
  by_cases hcorrection : v.lenf.toNat < s.params.lenCorrection
  case pos =>
    rw [if_pos hcorrection]
    exact .head (hcons.trans (congrArg Host.Outcome.next (if_pos hcorrection))) .refl
  case neg =>
    rw [if_neg hcorrection]
    refine .check (hcons.trans (congrArg Host.Outcome.next (if_neg hcorrection))) Iff.rfl rfl fun hequal => ?_
    refine .check ((step_of_phase rfl rfl).trans
      (shChksecAcceptsTwoValues _ _ _ _ rfl rfl (Memory.read?_ofBytes_eq_getD (by omega)))) Iff.rfl rfl fun _ => ?_
    refine .head ((step_of_phase rfl rfl).trans (shLatchCopiesTitleAndCounter _ _ _ _ _ rfl rfl
      (Memory.read_ofBytes_eq_bytesAt (by omega)) (Memory.read_ofBytes_eq_bytesAt (by omega)))) ?_
    refine reaches_afterDecrypt s f l ct v.lenf ⟨_, _, messageLength s.params v.lenf, v.hdrOff, _⟩ ?_
    change 16 + v.hdrOff.toNat + (messageLength s.params v.lenf).toNat ≤ ct.length
    rw [messageLength_toNat]
    omega

/-- The operations from SH.CHKMIN on are ParseHeader, and then Decrypt, in their order. -/
theorem reaches_afterHeader (s : State) (f : Nat) (l : Option Byte) (ct : ByteString) :
    ReachesWithin 10 (s.atFrame f l ct .shChkmin) (s.afterHeader ct (parseHeader s.params ct s.profile)) := by
  rw [parseHeader_eq]
  have hchkmin := shChkminRequiresTwentyBytes (s.atFrame f l ct .shChkmin) (Memory.ofBytes ct) rfl
  rw [Memory.ofBytes_length] at hchkmin
  refine .check ((step_of_phase rfl rfl).trans hchkmin) Iff.rfl rfl fun hlong => ?_
  have h0 := Memory.read?_ofBytes_eq_getD (bs := ct) (a := 0) (by omega)
  have h1 := Memory.read?_ofBytes_eq_getD (bs := ct) (a := 1) (by omega)
  refine .check ((step_of_phase rfl rfl).trans (shChktagChecksCipherTag _ _ _ rfl h0)) Iff.rfl rfl fun _ => ?_
  refine .check ((step_of_phase rfl rfl).trans (shChkstlChecksTitleLength _ _ _ rfl h1)) Iff.rfl rfl fun _ => ?_
  cases hparse : parseLength ct s.profile with
  | error e => exact .head (step_shLen_of_error (Nat.not_lt.1 hlong) hparse) .refl
  | ok v =>
    exact .head (step_shLen_of_ok (Nat.not_lt.1 hlong) hparse) (reaches_afterHeader_of_latched (Nat.not_lt.1 hlong) v)

end

/-! ## The whole attempt -/

theorem step_faAdvance {s : State} {raw : ByteString} (hraw : s.raw = Memory.ofBytes raw) (f : Nat) (len : Byte)
    (ct : ByteString) :
    step (s.atFrame f (some len) ct .faAdvance) =
      .next (s.atFrame (f + len.toNat + 6) (some len) ct
        (if f + len.toNat + 6 ≥ raw.length then .shChkmin else .faChkstart)) := by
  have hsize : f + frameSize len = f + len.toNat + 6 := by rw [frameSize_eq, Nat.add_assoc]
  have hrawLen : (s.atFrame f (some len) ct .faAdvance).rawLen = raw.length := State.rawLen_of_ofBytes hraw
  rw [step_of_phase rfl rfl, exec_faAdvance_of_some rfl rfl, hsize, hrawLen]
  rfl

/-- The rounds of Assemble, and then the header: seven operations for every six bytes of RAW, and ten at the end. -/
theorem reaches_afterAssemble {s : State} {raw : ByteString} (hraw : s.raw = Memory.ofBytes raw) (rounds f : Nat)
    (l : Option Byte) (ct : ByteString) (hrounds : raw.length - f < 6 * rounds) :
    ReachesWithin (7 * ((raw.length - f) / 6) + 10) (s.atFrame f l ct .faChkstart)
      (s.afterAssemble (assembleFrom s.params raw rounds f ct)) := by
  induction rounds generalizing f l ct with
  | zero => omega
  | succ rounds ih =>
    have hframe := reaches_afterFrameCheck hraw f l ct
    rw [assembleFrom_succ]
    cases hcheck : frameCheck s.params raw f with
    | error e =>
      rw [hcheck] at hframe
      exact hframe.mono (by omega)
    | ok len =>
      have hsize := frameCheck_ok_size hcheck
      have hadvance := step_faAdvance hraw f len (ct ++ framePayload s.params raw f len)
      rw [hcheck] at hframe
      simp only [assembleNext]
      split at hadvance
      · next hlast =>
        rw [if_pos hlast]
        exact (hframe.trans (.head hadvance (reaches_afterHeader s _ _ _))).mono (by omega)
      · next hmore =>
        rw [if_neg hmore]
        exact (hframe.trans (.head hadvance (ih _ _ _ (by omega)))).mono (by omega)

/-- R163, R169: from FA.INIT on the attempt is Decode. -/
theorem reaches_attemptResult {s : State} (hinv : s.Inv) :
    ReachesWithin (7 * (s.rawLen / 6) + 10) s.initAttempt (attemptResult s) := by
  have hraw := (Memory.wf_iff s.raw).1 hinv.raw_wf
  have hreach := reaches_afterAssemble hraw ((Memory.bytes s.raw).length / 6 + 1) 0 s.l [] (by omega)
  rw [Nat.sub_zero, Memory.bytes_length] at hreach
  rw [attemptResult_eq, assemble, Memory.bytes_length]
  exact hreach

/-- A TRIGGER on a non-empty buffer answers FA.INIT's state. -/
theorem exec_trigger_eq_initAttempt {s : State} (hconstructed : s.constructed = true) (hidle : s.phase = .idle)
    (hraw : 1 ≤ s.rawLen) : exec .trigger s = .next s.initAttempt := by
  rw [exec_trigger_eq_faInit hconstructed hidle hraw, exec_faInit]

/-- Settles O50: the steps after TRIGGER follow Decode's tests. -/
theorem attemptRunsTheDecodeFunction : Obligations.AttemptRunsTheDecodeFunction := by
  intro s hinv hconstructed hidle hraw
  obtain ⟨k, -, hrun⟩ := reaches_attemptResult hinv
  exact ⟨s.initAttempt, k, exec_trigger_eq_initAttempt hconstructed hidle hraw, hrun⟩

/-- Decode's answer is raised or handed out: one event either way. -/
theorem attemptResult_cases (s : State) :
    (∃ e info, attemptResult s = s.raise e info) ∨ ∃ h p, attemptResult s = s.succeed h p := by
  unfold attemptResult
  split
  · exact .inl ⟨_, _, rfl⟩
  · exact .inr ⟨_, _, rfl⟩

/-- Settles O51: the bound of the same run, and the two ends that Decode's answer has. -/
theorem everyAttemptEnds : Obligations.EveryAttemptEnds := by
  intro s t hinv hconstructed hidle hraw htrigger
  rw [exec_trigger_eq_initAttempt hconstructed hidle hraw] at htrigger
  cases htrigger
  obtain ⟨k, hk, hrun⟩ := reaches_attemptResult hinv
  obtain ⟨e, info, hresult⟩ | ⟨h, p, hresult⟩ := attemptResult_cases s
  · rw [hresult] at hrun
    exact ⟨k, _, .aborted e, hk, hrun, rfl, rfl, rfl, .inr ⟨e, info, rfl, rfl⟩⟩
  · rw [hresult] at hrun
    exact ⟨k, _, .plaintextReady h p s.profile, hk, hrun, rfl, rfl, rfl, .inl ⟨h, p, rfl, rfl⟩⟩

end Sys2Proof.Machine
end
